-- ==== Sys2Proof/Word.lean ====
section
/-! DEFINITION. The widths of the machine's values (00_scope.md R9, 30_encoding.md R45): bytes, 16-bit
values, the 9-bit length and the 64-bit command word. -/

namespace Sys2Proof

/-- A byte: 8 bits, unsigned (R9). -/
abbrev Byte := BitVec 8

/-- A 16-bit value: the checksum, an address, a count, a response value (R9, R11). -/
abbrev Word16 := BitVec 16

/-- A value of the 9-bit register LEN (R12). -/
abbrev LenWord := BitVec 9

/-- One command word, `cmd[63:0]`, bit 63 most significant (R45). It has no byte order (R37). -/
abbrev Word64 := BitVec 64

end Sys2Proof
end

