-- ==== Sys2Proof/Syntax.lean ====
section
/-! DEFINITION. The thirteen commands (00_scope.md R2, 30_encoding.md R49): one constructor per row of
spec/opcode_table.json, with the operands of R48. -/

namespace Sys2Proof

/-- A command of the engine. Byte and 16-bit operands are bit vectors (R48); SETID's candidate is the
signed integer the field denotes (R48, R110). -/
inductive Instr where
  /-- CRC.BUF, R65. -/
  | crcBuf
  /-- CRC.INIT, R66. -/
  | crcInit
  /-- CRC.BYTE b, R67. -/
  | crcByte (b : Byte)
  /-- BLD.REQ d, fc, addr, cnt, R75. -/
  | bldReq (d : Byte) (fc : Byte) (addr : Word16) (cnt : Word16)
  /-- BLD.RSP d, fc, R76. -/
  | bldRsp (d : Byte) (fc : Byte)
  /-- PUSH b, R77. -/
  | push (b : Byte)
  /-- APPCRC, R78. -/
  | appcrc
  /-- CLR, R79. -/
  | clr
  /-- CHK, R90. -/
  | chk
  /-- FLT d, R101. -/
  | flt (d : Byte)
  /-- FLT.FB, R102. -/
  | fltFb
  /-- SETID c, R110. -/
  | setid (c : Int)
  /-- SETCFG en, R113. -/
  | setcfg (en : Bool)
deriving DecidableEq, Repr

/-- The mnemonic of a command, as R49 spells it. -/
def Instr.mnemonic : Instr → String
  | .crcBuf => "CRC.BUF"
  | .crcInit => "CRC.INIT"
  | .crcByte _ => "CRC.BYTE"
  | .bldReq _ _ _ _ => "BLD.REQ"
  | .bldRsp _ _ => "BLD.RSP"
  | .push _ => "PUSH"
  | .appcrc => "APPCRC"
  | .clr => "CLR"
  | .chk => "CHK"
  | .flt _ => "FLT"
  | .fltFb => "FLT.FB"
  | .setid _ => "SETID"
  | .setcfg _ => "SETCFG"

end Sys2Proof
end

