-- ==== Sys2Proof/WellFormed.lean ====
section
/-! DEFINITION. Which commands can be spelled in a command word. Every operand but SETID's candidate has
the width of its field by its type; the candidate must fit the signed 16-bit field (30_encoding.md R48,
R54: "An operand that does not fit its field ... is an assembly error, not a command"). -/

namespace Sys2Proof

/-- A candidate that the 16-bit two's complement field `imm16` can spell: -32768..32767 (R48). -/
def candidateFits (c : Int) : Bool := decide (-32768 ≤ c) && decide (c ≤ 32767)

/-- Every operand fits its field (R54). -/
def Instr.wellFormed : Instr → Bool
  | .crcBuf => true
  | .crcInit => true
  | .crcByte _ => true
  | .bldReq _ _ _ _ => true
  | .bldRsp _ _ => true
  | .push _ => true
  | .appcrc => true
  | .clr => true
  | .chk => true
  | .flt _ => true
  | .fltFb => true
  | .setid c => candidateFits c
  | .setcfg _ => true

end Sys2Proof
end

