-- ==== Sys2Proof/Decode.lean ====
section
/-! DEFINITION. Command words (30_encoding.md): the six fields (R46), the six formats (R47), the opcode
map (R49), the decoder (R50) with the two kinds of illegal word (R51), and the encoder. -/

namespace Sys2Proof

/-- The six fields of a command word, in their order from bit 63 down (R46). -/
structure Fields where
  op : Byte
  a : Byte
  fc : Byte
  addr : Word16
  cnt : Word16
  rsv : Byte
deriving DecidableEq, Repr

/-- `op = cmd[63:56]`, `a = cmd[55:48]`, `fc = cmd[47:40]`, `addr = cmd[39:24]`, `cnt = cmd[23:8]`,
`rsv = cmd[7:0]` (R46). -/
def Fields.ofWord (w : Word64) : Fields where
  op := w.extractLsb' 56 8
  a := w.extractLsb' 48 8
  fc := w.extractLsb' 40 8
  addr := w.extractLsb' 24 16
  cnt := w.extractLsb' 8 16
  rsv := w.extractLsb' 0 8

/-- The word with the given fields, `op` in the most significant bits (R46). -/
def Fields.toWord (f : Fields) : Word64 :=
  f.op ++ f.a ++ f.fc ++ f.addr ++ f.cnt ++ f.rsv

/-- The six formats (R47). -/
inductive Format where
  | Z | B | C | I | P | Q
deriving DecidableEq, Repr

/-- The fields that the format requires to be zero are zero (R47). -/
def Format.reservedZero (m : Format) (f : Fields) : Bool :=
  match m with
  | .Z => f.a = 0 && f.fc = 0 && f.addr = 0 && f.cnt = 0 && f.rsv = 0
  | .B => f.fc = 0 && f.addr = 0 && f.cnt = 0 && f.rsv = 0
  | .C => f.a.extractLsb' 1 7 = 0 && f.fc = 0 && f.addr = 0 && f.cnt = 0 && f.rsv = 0
  | .I => f.a = 0 && f.fc = 0 && f.cnt = 0 && f.rsv = 0
  | .P => f.addr = 0 && f.cnt = 0 && f.rsv = 0
  | .Q => f.rsv = 0

/-- One row of the opcode map: the opcode, the format, and the command with its operands taken from the
fields (R48, R49). -/
structure OpRow where
  op : Byte
  format : Format
  command : Fields → Instr

/-- The opcode map (R49), operands as R48 takes them: `imm16` is `addr` read as two's complement. -/
def opcodeMap : List OpRow :=
  [ ⟨0x10#8, .Z, fun _ => .crcBuf⟩,
    ⟨0x11#8, .Z, fun _ => .crcInit⟩,
    ⟨0x12#8, .B, fun f => .crcByte f.a⟩,
    ⟨0x20#8, .Q, fun f => .bldReq f.a f.fc f.addr f.cnt⟩,
    ⟨0x21#8, .P, fun f => .bldRsp f.a f.fc⟩,
    ⟨0x22#8, .B, fun f => .push f.a⟩,
    ⟨0x23#8, .Z, fun _ => .appcrc⟩,
    ⟨0x24#8, .Z, fun _ => .clr⟩,
    ⟨0x30#8, .Z, fun _ => .chk⟩,
    ⟨0x40#8, .B, fun f => .flt f.a⟩,
    ⟨0x41#8, .Z, fun _ => .fltFb⟩,
    ⟨0x50#8, .I, fun f => .setid f.addr.toInt⟩,
    ⟨0x51#8, .C, fun f => .setcfg (f.a.getLsbD 0)⟩ ]

/-- Why a word is illegal (R51). -/
inductive Illegal where
  /-- R51(a): `op` is none of the thirteen. -/
  | unassignedOpcode
  /-- R51(b): a field the format requires to be zero is not zero. -/
  | reservedField
deriving DecidableEq, Repr

/-- What a word decodes to: one command, or illegal (R50). -/
inductive Decoded where
  | command (i : Instr)
  | illegal (why : Illegal)
deriving DecidableEq, Repr

/-- Decoding by fields (R47, R49, R50). -/
def decodeFields (f : Fields) : Decoded :=
  match opcodeMap.find? (fun r => r.op = f.op) with
  | none => .illegal .unassignedOpcode
  | some r => if r.format.reservedZero f then .command (r.command f) else .illegal .reservedField

/-- The decoder: total, every 64-bit word is one command or illegal (R50). -/
def decode (w : Word64) : Decoded := decodeFields (Fields.ofWord w)

/-- The fields that spell a command (R47 to R49). -/
def Instr.fields : Instr → Fields
  | .crcBuf => ⟨0x10#8, 0, 0, 0, 0, 0⟩
  | .crcInit => ⟨0x11#8, 0, 0, 0, 0, 0⟩
  | .crcByte b => ⟨0x12#8, b, 0, 0, 0, 0⟩
  | .bldReq d fc addr cnt => ⟨0x20#8, d, fc, addr, cnt, 0⟩
  | .bldRsp d fc => ⟨0x21#8, d, fc, 0, 0, 0⟩
  | .push b => ⟨0x22#8, b, 0, 0, 0, 0⟩
  | .appcrc => ⟨0x23#8, 0, 0, 0, 0, 0⟩
  | .clr => ⟨0x24#8, 0, 0, 0, 0, 0⟩
  | .chk => ⟨0x30#8, 0, 0, 0, 0, 0⟩
  | .flt d => ⟨0x40#8, d, 0, 0, 0, 0⟩
  | .fltFb => ⟨0x41#8, 0, 0, 0, 0, 0⟩
  | .setid c => ⟨0x50#8, 0, 0, BitVec.ofInt 16 c, 0, 0⟩
  | .setcfg en => ⟨0x51#8, (if en then 0x01#8 else 0x00#8), 0, 0, 0, 0⟩

/-- The command word of a command (R46 to R49). -/
def encode (i : Instr) : Word64 := i.fields.toWord

/-- One row of R49 as its last columns give it: a word `w` is the command iff `w & mask = pattern`. -/
structure MaskRow where
  mnemonic : String
  pattern : Word64
  mask : Word64
deriving DecidableEq, Repr

/-- The match and mask columns of R49, transcribed; the decoder above does not use them. -/
def maskTable : List MaskRow :=
  [ ⟨"CRC.BUF", 0x1000000000000000#64, 0xFFFFFFFFFFFFFFFF#64⟩,
    ⟨"CRC.INIT", 0x1100000000000000#64, 0xFFFFFFFFFFFFFFFF#64⟩,
    ⟨"CRC.BYTE", 0x1200000000000000#64, 0xFF00FFFFFFFFFFFF#64⟩,
    ⟨"BLD.REQ", 0x2000000000000000#64, 0xFF000000000000FF#64⟩,
    ⟨"BLD.RSP", 0x2100000000000000#64, 0xFF0000FFFFFFFFFF#64⟩,
    ⟨"PUSH", 0x2200000000000000#64, 0xFF00FFFFFFFFFFFF#64⟩,
    ⟨"APPCRC", 0x2300000000000000#64, 0xFFFFFFFFFFFFFFFF#64⟩,
    ⟨"CLR", 0x2400000000000000#64, 0xFFFFFFFFFFFFFFFF#64⟩,
    ⟨"CHK", 0x3000000000000000#64, 0xFFFFFFFFFFFFFFFF#64⟩,
    ⟨"FLT", 0x4000000000000000#64, 0xFF00FFFFFFFFFFFF#64⟩,
    ⟨"FLT.FB", 0x4100000000000000#64, 0xFFFFFFFFFFFFFFFF#64⟩,
    ⟨"SETID", 0x5000000000000000#64, 0xFFFFFF0000FFFFFF#64⟩,
    ⟨"SETCFG", 0x5100000000000000#64, 0xFFFEFFFFFFFFFFFF#64⟩ ]

/-- The command word that the low `nbits` bits of `w` give, the bits above them zero; none when those
bits do not fit a command word (R45: there is one length only). -/
def tableWord (nbits w : Nat) : Option Word64 :=
  let v := w % 2 ^ nbits
  if v < 2 ^ 64 then some (BitVec.ofNat 64 v) else none

/-- The command the decoder reads from a word numbered as the opcode table numbers it (log 5). -/
def decodeTableWord (nbits w : Nat) : Option Instr :=
  match tableWord nbits w with
  | none => none
  | some c =>
    match decode c with
    | .command i => some i
    | .illegal _ => none

end Sys2Proof
end

