-- ==== Sys2Proof/Config.lean ====
section
/-! DEFINITION. The parameters of 00_scope.md R5, and the one free value of the machine: what a frame
buffer byte holds after a reset (10_state.md R23, 70_reset_and_hazards.md R141). LATENCY is left out: no
rule reads it (R5, R152; log 6). -/

namespace Sys2Proof

/-- ID_MAX, the largest legal device identifier (R5). -/
@[simp] abbrev Config.idMax : Nat := 247

/-- BROADCAST_ID (R5). -/
@[simp] abbrev Config.broadcastId : Byte := 0x00#8

/-- FRAME_MAX, the largest frame in bytes with its checksum, and the size of the frame buffer (R5, R30). -/
@[simp] abbrev Config.frameMax : Nat := 256

/-- CRC_SUFFIX_LEN (R5). -/
@[simp] abbrev Config.crcSuffixLen : Nat := 2

/-- CRC_SEED, both accumulators at 0xFF (R5). -/
@[simp] abbrev Config.crcSeed : Word16 := 0xFFFF#16

/-- CRC_POLY, reflected: the register shifts right (R5, R60). -/
@[simp] abbrev Config.crcPoly : Word16 := 0xA001#16

/-- FREE VALUE. The byte that `FB[address]` holds after reset number `resets`, until a command writes it:
"any byte, and not necessarily the same byte on two resets" (R23), "an arbitrary byte" (R141). It has no
body, so nothing can be proved about its value (log 3). -/
opaque Config.fbResetByte (resets : Nat) (address : Nat) : Byte

end Sys2Proof
end

