-- ==== Sys2Proof/Machine/Operands.lean ====
section
/-! DEFINITION. The operand forms and the pure word operations of the commands (30_encoding.md R48,
40_common_semantics.md R57): splitting and joining bytes, zero extension, and the tests on identifiers. -/

namespace Sys2Proof.Machine

/-- `v[15:8]` (R9). -/
def hiByte (v : Word16) : Byte := v.extractLsb' 8 8

/-- `v[7:0]` (R9). -/
def loByte (v : Word16) : Byte := v.extractLsb' 0 8

/-- `{hi, lo}`, 16 bits with `hi` the more significant byte (R9, R35). -/
def joinBytes (hi lo : Byte) : Word16 := hi ++ lo

/-- The bytes of a 16-bit field in the order of the wire: big-endian (R35). -/
def wireBytes (v : Word16) : List Byte := [hiByte v, loByte v]

/-- `valid_id(d)`: `d <= 247`, unsigned (R80). -/
def validId (d : Byte) : Bool := decide (d.toNat ≤ Config.idMax)

/-- SETID's range check `0 <= c <= 247`, on the signed candidate (R111). -/
def validCandidate (c : Int) : Bool := decide (0 ≤ c) && decide (c ≤ (Config.idMax : Int))

/-- `imm16[7:0]` of the candidate's field (R110). -/
def candidateByte (c : Int) : Byte := loByte (BitVec.ofInt 16 c)

/-- The filter's predicate: `(d = own) or (d = BROADCAST_ID)` (R100). -/
def accepts (own d : Byte) : Bool := decide (d = own) || decide (d = Config.broadcastId)

/-- A byte zero-extended to a response value (R57). -/
def byteValue (b : Byte) : Word16 := b.setWidth 16

/-- LEN zero-extended to a response value; 256 is 0x0100 (R57, R91). -/
def lenValue (n : LenWord) : Word16 := n.setWidth 16

/-- A bit zero-extended to a response value (R57). -/
def bitValue (b : Bool) : Word16 := if b then 1#16 else 0#16

end Sys2Proof.Machine
end

