-- ==== Sys2Proof/Machine/Crc.lean ====
section
/-! DEFINITION. The checksum function (41_checksum.md): the bitwise form (R60), the two tables generated
from the polynomial (R61), one table-driven byte step (R62) and the checksum of a byte sequence (R63). -/

namespace Sys2Proof.Machine

/-- One shift step of the bitwise form: right by one, a 0 entering at bit 15, exclusive-or with the
polynomial when bit 0 was 1 (R60). -/
def crcShift (r : Word16) : Word16 :=
  if r.getLsbD 0 then (r >>> 1) ^^^ Config.crcPoly else r >>> 1

/-- `n` shift steps (R60 does eight per byte). -/
def crcShifts : Nat → Word16 → Word16
  | 0, r => r
  | n + 1, r => crcShifts n (crcShift r)

/-- One byte of the bitwise form: the byte into the low 8 bits, then eight shift steps (R60). -/
def crcBitwiseByte (r : Word16) (b : Byte) : Word16 := crcShifts 8 (r ^^^ b.setWidth 16)

/-- The shift register of the bitwise form after a byte sequence (R60). -/
def crcRegister (bytes : List Byte) : Word16 := bytes.foldl crcBitwiseByte Config.crcSeed

/-- `T(i)`: eight shift steps from the index (R61). -/
def crcT (i : Byte) : Word16 := crcShifts 8 (i.setWidth 16)

/-- `TABLE_HI[i] = T(i)[7:0]` (R61). -/
def tableHi (i : Byte) : Byte := loByte (crcT i)

/-- `TABLE_LO[i] = T(i)[15:8]` (R61). -/
def tableLo (i : Byte) : Byte := hiByte (crcT i)

/-- `crc_step(hi, lo, b)`: the new pair of accumulators (R62). -/
def crcStep (hi lo b : Byte) : Byte × Byte :=
  let i := hi ^^^ b
  (lo ^^^ tableHi i, tableLo i)

/-- The accumulators after a byte sequence, from any pair (the loop of R63). -/
def crcAccumulate (acc : Byte × Byte) (bytes : List Byte) : Byte × Byte :=
  bytes.foldl (fun p b => crcStep p.1 p.2 b) acc

/-- `checksum(bytes)` (R63): from the seed, each byte in order, then `{hi, lo}`. -/
def checksum (bytes : List Byte) : Word16 :=
  let p := crcAccumulate (hiByte Config.crcSeed, loByte Config.crcSeed) bytes
  joinBytes p.1 p.2

end Sys2Proof.Machine
end

