-- ==== Sys2Proof/Machine/State.lean ====
section
/-! DEFINITION. The state of the machine: the ten items of 10_state.md R10 in the structure `Engine`, and
beside them the three fields through which the host's interface sees the ports (log 1): what the host
presents, the response of the last step, and the count of resets that indexes the free buffer contents. -/

namespace Sys2Proof.Machine

/-- The frame buffer: the bytes written since the last reset, as (address, byte) pairs with strictly rising
addresses below 256 (`Memory.wf`). An address that is not listed holds its reset contents, which are
unspecified (R23, R30, R31; log 3). -/
abbrev Memory := List Host.Cell

/-- The complete architectural state: the ten items of R10 and no other. -/
structure Engine where
  /-- FB[0..255], the frame buffer (R10, R30). -/
  fb : Memory
  /-- LEN, 9 bits, 0..256 (R10, R12). -/
  len : LenWord
  /-- ACC_HI (R10, R11). -/
  accHi : Byte
  /-- ACC_LO (R10, R11). -/
  accLo : Byte
  /-- OWN_ID (R10, R14). -/
  ownId : Byte
  /-- ID_VALID (R10, R15). -/
  idValid : Bool
  /-- RECOVERY_EN (R10, R16). -/
  recoveryEn : Bool
  /-- CRC_RX (R10, R18). -/
  crcRx : Word16
  /-- CRC_CALC (R10, R18). -/
  crcCalc : Word16
  /-- HALT, sticky (R10, R17). -/
  halt : Bool
deriving DecidableEq, Repr

/-- The statuses of a response (R120); codes 9..15 are never produced, so they have no constructor. -/
inductive Status where
  | ok | invalidId | crcMismatch | assert | illegal | overflow | short | noid | halted
deriving DecidableEq, Repr

/-- A response: status, value, flush request (R8, R120). -/
structure Response where
  status : Status
  value : Word16
  flush : Bool
deriving DecidableEq, Repr

/-- What the host can present to the engine between two commands (R7, R8, R153): a command word on the
command port, or reset. -/
inductive Input where
  /-- `cmd_valid` with `cmd = w`. -/
  | command (w : Word64)
  /-- `rst` asserted and released, between commands (R140, R153; log 2). -/
  | reset
deriving DecidableEq, Repr

/-- The engine with its ports. `inputs`, `rsp` and `resets` are the model's own fields (log 1). -/
structure State extends Engine where
  /-- What the host presents next, the next one first (ports `cmd`, `cmd_valid`, `rst` of R8). -/
  inputs : List Input
  /-- The response port after the last step: its response, or none (`rsp_valid = 0`). No command reads it
  (R21c). -/
  rsp : Option Response
  /-- How many resets there have been: the argument of the free buffer contents (R23; log 3). -/
  resets : Nat
deriving DecidableEq, Repr

/-- Why a step can stop. The spec has no such stop: its errors are responses (R120). -/
inductive Fault where
  /-- Raised by the buffer accesses of Ops.lean (`loadByte`, `sweep`, `storeBytes`) for an address outside
  0..255. R30 gives no such address and R32 shows that no command reaches one; it needs LEN > 256, which R12
  says is never reached. Safe: the model stops where the spec gives no byte (log 4). -/
  | noSuchFrameByte
deriving DecidableEq, Repr

/-- Why an instruction has no meaning. Nothing raises it: every command has its meaning. -/
inductive Refusal where
  /-- An instruction not modelled yet, by its mnemonic. Raised by no arm of exec. Safe. -/
  | notModelled (mnemonic : String)
deriving DecidableEq, Repr

/-- What a command, or a step, ends in. -/
abbrev Result := Host.Outcome State Fault Refusal

/-- The state after reset (R23, R140): nothing written to the buffer, LEN 0, the accumulators at the seed,
everything else 0; idle, with no response pending and nothing presented. -/
def State.reset : State where
  fb := []
  len := 0#9
  accHi := 0xFF#8
  accLo := 0xFF#8
  ownId := 0x00#8
  idValid := false
  recoveryEn := false
  crcRx := 0x0000#16
  crcCalc := 0x0000#16
  halt := false
  inputs := []
  rsp := none
  resets := 0

end Sys2Proof.Machine
end

