-- ==== Sys2Proof/Machine/Flags.lean ====
section
/-! DEFINITION. The one-bit state (10_state.md R19): HALT, ID_VALID with the identifier it vouches for,
RECOVERY_EN, and the flush request. There are no condition codes. -/

namespace Sys2Proof.Machine

/-- `HALT <- 1`; nothing but reset clears it (R17, R125). -/
def State.setHalt (s : State) : State := { s with halt := true }

/-- `OWN_ID <- own`, `ID_VALID <- 1`: a successful SETID writes the two together (R15, R110). -/
def State.setOwnId (s : State) (own : Byte) : State := { s with ownId := own, idValid := true }

/-- `RECOVERY_EN <- en` (R16, R113). -/
def State.setRecoveryEn (s : State) (en : Bool) : State := { s with recoveryEn := en }

/-- The flush bit of a CHK mismatch: RECOVERY_EN (R90, R93). -/
def State.flushRequest (s : State) : Bool := s.recoveryEn

end Sys2Proof.Machine
end

