-- ==== Sys2Proof/Machine/Ops.lean ====
section
/-! DEFINITION. The shared operations: the frame buffer as a canonical list (20_memory.md), register
writes, the buffer access forms (40_common_semantics.md R59), responses, the error responses and ASSERT
(60_exceptions.md), the common prologue (R127) and reset (70_reset_and_hazards.md R140). -/

namespace Sys2Proof.Machine

/-- The canonical form of the frame buffer: addresses strictly rising, all of them below 256 (R30; log 3). -/
def Memory.wf (m : Memory) : Bool :=
  decide (m.Pairwise (fun x y => x.1 < y.1)) && m.all (fun c => decide (c.1 < Config.frameMax))

/-- The byte written at an address since reset, or none where nothing was. -/
def Memory.read : Memory → Nat → Option Byte
  | [], _ => none
  | (k, v) :: rest, a => if k = a then some v else Memory.read rest a

/-- `MemWrite(a, 1, b)` (R9): the byte at `a` replaced, or put at its place in the rising order. -/
def Memory.write : Memory → Nat → Byte → Memory
  | [], a, b => [(a, b)]
  | (k, v) :: rest, a, b =>
    if a < k then (a, b) :: (k, v) :: rest
    else if a = k then (a, b) :: rest
    else (k, v) :: Memory.write rest a b

/-- One-byte writes at `a`, `a + 1`, and so on, in increasing address order (R37, R39). -/
def Memory.writeBytes : Memory → Nat → List Byte → Memory
  | m, _, [] => m
  | m, a, b :: bs => Memory.writeBytes (Memory.write m a b) (a + 1) bs

/-- `FB[a]` as a value, `MemRead(a, 1)` (R9): the byte last written there, or the reset contents where none
was (R31, R40), which are free (R23; log 3). -/
def State.fbByte (s : State) (a : Nat) : Byte :=
  match s.fb.read a with
  | some b => b
  | none => Config.fbResetByte s.resets a

/-- Read one byte of the buffer; an address outside 0..255 does not exist (R30, R32; log 4). -/
def State.loadByte (s : State) (a : Nat) : Except Fault Byte :=
  if a < Config.frameMax then .ok (s.fbByte a) else .error .noSuchFrameByte

/-- The sweep form (R59): `FB[0..n-1]` in increasing order (log 4 for `n > 256`). -/
def State.sweep (s : State) (n : Nat) : Except Fault (List Byte) :=
  if n ≤ Config.frameMax then .ok ((List.range n).map s.fbByte) else .error .noSuchFrameByte

/-- Write bytes at `a`, `a + 1`, and so on; nothing is written when one address does not exist (R32; log 4). -/
def State.storeBytes (s : State) (a : Nat) (bs : List Byte) : Except Fault State :=
  if a + bs.length ≤ Config.frameMax then .ok { s with fb := s.fb.writeBytes a bs }
  else .error .noSuchFrameByte

/-- `LEN <- n` (R12). -/
def State.setLen (s : State) (n : LenWord) : State := { s with len := n }

/-- `ACC_HI <- c[15:8]; ACC_LO <- c[7:0]` (R11, R65). -/
def State.setAcc (s : State) (c : Word16) : State := { s with accHi := hiByte c, accLo := loByte c }

/-- `CRC_RX <- rx; CRC_CALC <- calc` (R18, R90). -/
def State.setDiagnostics (s : State) (rx recomputed : Word16) : State := { s with crcRx := rx, crcCalc := recomputed }

/-- The fixed offset form (R59): bytes at offset 0 on, and LEN set to their number. -/
def State.startFrame (s : State) (bs : List Byte) : Except Fault State :=
  match s.storeBytes 0 bs with
  | .ok t => .ok (t.setLen (BitVec.ofNat 9 bs.length))
  | .error f => .error f

/-- The append form (R59): bytes at `LEN` on, and LEN advanced by their number. -/
def State.appendBytes (s : State) (bs : List Byte) : Except Fault State :=
  match s.storeBytes s.len.toNat bs with
  | .ok t => .ok (t.setLen (s.len + BitVec.ofNat 9 bs.length))
  | .error f => .error f

/-- `respond(S, v, f)` (R9, R120): the one response of a command, on the response port. -/
def State.respond (s : State) (status : Status) (value : Word16) (flush : Bool) : State :=
  { s with rsp := some ⟨status, value, flush⟩ }

/-- `respond(OK, v)` (R9). -/
def State.answer (s : State) (value : Word16) : State := s.respond .ok value false

/-- `raise S` (R9, R120): the error response, value 0, no flush, no register and no buffer byte changed. This
is the engine's one way to take an exception: there is no vector and nothing is saved (R9). -/
def State.raise (s : State) (status : Status) : State := s.respond status 0#16 false

/-- `raise ASSERT` (R9, R125): the same, and `HALT <- 1`. -/
def State.raiseAssert (s : State) : State := s.setHalt.raise .assert

/-- Reset, the only way out of HALT (R131, R140): every item at its reset value, the buffer unspecified
anew (R141), no response pending. What the host presents afterwards stays. -/
def State.applyReset (s : State) : State :=
  { State.reset with inputs := s.inputs, resets := s.resets + 1 }

/-- A step in which the host presents nothing: no command, no response, the ten items as they were
(R22, R152; log 2). -/
def State.idle (s : State) : State := { s with rsp := none }

/-- Go on with the result of a buffer access, or stop with its fault. -/
def attempt {α : Type} (e : Except Fault α) (k : α → Result) : Result :=
  match e with
  | .ok x => k x
  | .error f => .fault f

/-- Step 1 of the common prologue (R126, R127): while HALT = 1 every word is answered HALTED. -/
def State.unlessHalted (s : State) (r : Result) : Result :=
  if s.halt then .next (s.raise .halted) else r

/-- Step 2 of the common prologue (R50, R123, R127): an illegal word is answered ILLEGAL, or HALTED. -/
def execIllegal (s : State) : Result := s.unlessHalted (.next (s.raise .illegal))

end Sys2Proof.Machine
end

