-- ==== Sys2Proof/Machine/Builder.lean ====
section
/-! DEFINITION. The Frame Builder's commands (42_frame_builder.md): BLD.REQ, BLD.RSP, PUSH, APPCRC, CLR. The
value of every OK answer is the new LEN. -/

namespace Sys2Proof.Machine

/-- The request basis (R34): destination, command code, address and count big-endian (R35). -/
def requestBasis (d fc : Byte) (addr cnt : Word16) : List Byte := [d, fc] ++ wireBytes addr ++ wireBytes cnt

/-- The response basis (R34): destination, command code. -/
def responseBasis (d fc : Byte) : List Byte := [d, fc]

/-- Start a frame with a basis, or assert when the destination is not a valid identifier (R75, R76, R80). -/
def buildBasis (d : Byte) (basis : List Byte) (s : State) : Result :=
  s.unlessHalted <|
    if validId d then attempt (s.startFrame basis) fun t => .next (t.answer (lenValue t.len))
    else .next s.raiseAssert

/-- BLD.REQ d, fc, addr, cnt (R75). -/
def execBldReq (d fc : Byte) (addr cnt : Word16) (s : State) : Result :=
  buildBasis d (requestBasis d fc addr cnt) s

/-- BLD.RSP d, fc (R76). -/
def execBldRsp (d fc : Byte) (s : State) : Result := buildBasis d (responseBasis d fc) s

/-- PUSH b: OVERFLOW on a full buffer, else append the byte (R77). -/
def execPush (b : Byte) (s : State) : Result :=
  s.unlessHalted <|
    if s.len.toNat = Config.frameMax then .next (s.raise .overflow)
    else attempt (s.appendBytes [b]) fun t => .next (t.answer (lenValue t.len))

/-- APPCRC: OVERFLOW when LEN > 254, else append the checksum of the frame, high byte first (R78). -/
def execAppcrc (s : State) : Result :=
  s.unlessHalted <|
    if Config.frameMax - Config.crcSuffixLen < s.len.toNat then .next (s.raise .overflow)
    else attempt (s.sweep s.len.toNat) fun bytes =>
      let c := checksum bytes
      attempt (s.appendBytes (wireBytes c)) fun t => .next ((t.setAcc c).answer (lenValue t.len))

/-- CLR: an empty frame; no byte of FB is changed (R79). -/
def execClr (s : State) : Result := s.unlessHalted <| .next ((s.setLen 0#9).answer 0#16)

end Sys2Proof.Machine
end

