-- ==== Sys2Proof/Machine/Checksum.lean ====
section
/-! DEFINITION. The Checksum Engine's commands (41_checksum.md): CRC.BUF, CRC.INIT, CRC.BYTE. -/

namespace Sys2Proof.Machine

/-- CRC.BUF: `ACC` becomes the checksum of `FB[0..LEN-1]`, which is the answer (R65). -/
def execCrcBuf (s : State) : Result :=
  s.unlessHalted <|
    attempt (s.sweep s.len.toNat) fun bytes =>
      let c := checksum bytes
      .next ((s.setAcc c).answer c)

/-- CRC.INIT: seed the accumulators (R66). -/
def execCrcInit (s : State) : Result :=
  s.unlessHalted <| .next ((s.setAcc Config.crcSeed).answer Config.crcSeed)

/-- CRC.BYTE b: one byte step on the accumulators (R67). -/
def execCrcByte (b : Byte) (s : State) : Result :=
  s.unlessHalted <|
    let p := crcStep s.accHi s.accLo b
    let c := joinBytes p.1 p.2
    .next ((s.setAcc c).answer c)

end Sys2Proof.Machine
end

