-- ==== Sys2Proof/Machine/Filter.lean ====
section
/-! DEFINITION. The Address Filter's commands (44_address_filter.md): FLT, FLT.FB. -/

namespace Sys2Proof.Machine

/-- NOID while no identifier is configured (R103). -/
def State.unlessNoId (s : State) (r : Result) : Result :=
  if s.idValid then r else .next (s.raise .noid)

/-- FLT d: 1 for accept, 0 for reject; a reject is no error (R101). -/
def execFlt (d : Byte) (s : State) : Result :=
  s.unlessHalted <| s.unlessNoId <| .next (s.answer (bitValue (accepts s.ownId d)))

/-- FLT.FB: the same for `FB[0]`; NOID first, then SHORT on an empty buffer (R102). -/
def execFltFb (s : State) : Result :=
  s.unlessHalted <| s.unlessNoId <|
    if s.len.toNat = 0 then .next (s.raise .short)
    else attempt (s.loadByte 0) fun d => .next (s.answer (bitValue (accepts s.ownId d)))

end Sys2Proof.Machine
end

