-- ==== Sys2Proof/Machine/Identifier.lean ====
section
/-! DEFINITION. Identifier assignment and configuration (45_identifier_config.md): SETID, SETCFG. -/

namespace Sys2Proof.Machine

/-- SETID c: INVALID_ID outside 0..247 with nothing changed, else the identifier is stored, made valid and
answered (R110 to R112, R114). -/
def execSetid (c : Int) (s : State) : Result :=
  s.unlessHalted <|
    if validCandidate c then .next ((s.setOwnId (candidateByte c)).answer (byteValue (candidateByte c)))
    else .next (s.raise .invalidId)

/-- SETCFG en: the automatic-error-recovery switch (R113). -/
def execSetcfg (en : Bool) (s : State) : Result :=
  s.unlessHalted <| .next ((s.setRecoveryEn en).answer (bitValue en))

end Sys2Proof.Machine
end

