-- ==== Sys2Proof/Machine/Validator.lean ====
section
/-! DEFINITION. The Frame Validator's command (43_frame_validator.md): CHK. -/

namespace Sys2Proof.Machine

/-- The answer of CHK once both checksums are known: the diagnostics and the accumulators are written on a
match and on a mismatch alike; a mismatch asks for a flush when RECOVERY_EN = 1 (R90 to R93). -/
def compareChecksums (rx recomputed : Word16) (s : State) : State :=
  let t := (s.setDiagnostics rx recomputed).setAcc recomputed
  if rx = recomputed then t.answer (lenValue s.len) else t.respond .crcMismatch 0#16 s.flushRequest

/-- CHK: SHORT when LEN < 2; else the last two bytes, big-endian, against the checksum of those before
(R90, R95). -/
def execChk (s : State) : Result :=
  s.unlessHalted <|
    if s.len.toNat < Config.crcSuffixLen then .next (s.raise .short)
    else attempt (s.loadByte (s.len.toNat - 2)) fun hi =>
      attempt (s.loadByte (s.len.toNat - 1)) fun lo =>
        attempt (s.sweep (s.len.toNat - Config.crcSuffixLen)) fun bytes =>
          .next (compareChecksums (joinBytes hi lo) (checksum bytes) s)

end Sys2Proof.Machine
end

