-- ==== Sys2Proof/Machine/Dispatch.lean ====
section
/-! DEFINITION. One arm per command: its meaning (30_encoding.md R49, 40_common_semantics.md R56). -/

namespace Sys2Proof.Machine

def exec (i : Instr) (s : State) : Host.Outcome State Fault Refusal :=
  match i with
  | .crcBuf => Sys2Proof.Machine.execCrcBuf s
  | .crcInit => Sys2Proof.Machine.execCrcInit s
  | .crcByte b => Sys2Proof.Machine.execCrcByte b s
  | .bldReq d fc addr cnt => Sys2Proof.Machine.execBldReq d fc addr cnt s
  | .bldRsp d fc => Sys2Proof.Machine.execBldRsp d fc s
  | .push b => Sys2Proof.Machine.execPush b s
  | .appcrc => Sys2Proof.Machine.execAppcrc s
  | .clr => Sys2Proof.Machine.execClr s
  | .chk => Sys2Proof.Machine.execChk s
  | .flt d => Sys2Proof.Machine.execFlt d s
  | .fltFb => Sys2Proof.Machine.execFltFb s
  | .setid c => Sys2Proof.Machine.execSetid c s
  | .setcfg en => Sys2Proof.Machine.execSetcfg en s

end Sys2Proof.Machine
end

