-- ==== Sys2Proof/Machine/Accept.lean ====
section
/-! DEFINITION. Accepting what the host presents: one command word (40_common_semantics.md R56,
60_exceptions.md R127), a reset (70_reset_and_hazards.md R140, R153), or nothing. -/

namespace Sys2Proof.Machine

/-- One accepted command word: decoded and executed, or illegal (R50, R56, R127). The HALTED test, which
comes before both, stands at the head of every meaning and of `execIllegal`. -/
def acceptWord (w : Word64) (s : State) : Result :=
  match decode w with
  | .command i => exec i s
  | .illegal _ => execIllegal s

/-- Take the next thing the host presents, if any (R7, R40: in order, one at a time). -/
def acceptNext (s : State) : Result :=
  match s.inputs with
  | [] => .next s.idle
  | .reset :: rest => .next ({ s with inputs := rest } : State).applyReset
  | .command w :: rest => acceptWord w { s with inputs := rest }

/-- The word presented before whatever else the host presents. -/
def State.present (s : State) (w : Word64) : State := { s with inputs := .command w :: s.inputs }

end Sys2Proof.Machine
end

