-- ==== Sys2Proof/Machine/Step.lean ====
section
/-! DEFINITION. One step of the machine (40_common_semantics.md R56): the engine takes what the host
presents next and completes it. -/

namespace Sys2Proof.Machine

/-- One step: next, fault or refusal. -/
def step (s : State) : Host.Outcome State Fault Refusal := acceptNext s

/-- The state with the opcode table's word presented on the command port, ahead of anything else the host
presents: there is no program counter and no program memory to store it in (R22; log 5). -/
def State.withFetchWord (s : State) (nbits w : Nat) : State := s.present ((tableWord nbits w).getD 0#64)

end Sys2Proof.Machine
end

