-- ==== Sys2Proof/Machine/Assembler.lean ====
section
/-! DEFINITION. The textual command syntax (30_encoding.md R54) and the pseudo-commands (R55). A line is a
list of characters; it assembles to a list of commands, or to a named assembly error (log 8). -/

namespace Sys2Proof.Machine

/-- The pseudo-commands (R55). -/
inductive Pseudo where
  | load (bytes : List Byte)
  | crcStream (bytes : List Byte)
  | frameReq (d fc : Byte) (addr cnt : Word16)
  | frameRsp (d fc : Byte) (bytes : List Byte)
deriving DecidableEq, Repr

/-- The expansion of a pseudo-command (R55). -/
def Pseudo.expand : Pseudo → List Instr
  | .load bytes => .clr :: bytes.map .push
  | .crcStream bytes => .crcInit :: bytes.map .crcByte
  | .frameReq d fc addr cnt => [.bldReq d fc addr cnt, .appcrc]
  | .frameRsp d fc bytes => .bldRsp d fc :: (bytes.map .push ++ [.appcrc])

/-- Why a line is no command (R54). -/
inductive AsmError where
  | unknownMnemonic
  | wrongOperandCount
  | badNumber
  /-- "An operand that does not fit its field" (R54). -/
  | doesNotFit
deriving DecidableEq, Repr

/-- The value of a digit in base 10 or 16 (log 8: hexadecimal digits in either case). -/
def digitValue (base : Nat) (c : Char) : Option Nat :=
  let n := c.toNat
  let v :=
    if 48 ≤ n ∧ n ≤ 57 then n - 48
    else if 65 ≤ n ∧ n ≤ 70 then n - 55
    else if 97 ≤ n ∧ n ≤ 102 then n - 87
    else base
  if v < base then some v else none

/-- The number that digits spell, after the value `acc` of those before them. -/
def digitsValue (base : Nat) : Nat → List Char → Option Nat
  | acc, [] => some acc
  | acc, c :: cs =>
    match digitValue base c with
    | some v => digitsValue base (acc * base + v) cs
    | none => none

/-- A number without sign: one digit or more. -/
def naturalValue (base : Nat) (cs : List Char) : Option Nat :=
  if cs.isEmpty then none else digitsValue base 0 cs

/-- A number: decimal, with `-` when negative, or hexadecimal with `0x` (R54). -/
def numberValue : List Char → Except AsmError Int
  | '-' :: cs => match naturalValue 10 cs with | some n => .ok (-(n : Int)) | none => .error .badNumber
  | '0' :: 'x' :: cs => match naturalValue 16 cs with | some n => .ok n | none => .error .badNumber
  | cs => match naturalValue 10 cs with | some n => .ok n | none => .error .badNumber

/-- An unsigned operand of a field of `w` bits (R48, R54). DESIGN CHOICE (log 8): a number below zero does not
fit the field, and the signed zero `-0` is the number 0, which fits every field. -/
def unsignedOperand (w : Nat) (n : Int) : Except AsmError (BitVec w) :=
  if 0 ≤ n ∧ n < 2 ^ w then .ok (BitVec.ofInt w n) else .error .doesNotFit

/-- Operands that must all be bytes. -/
def byteOperands : List Int → Except AsmError (List Byte)
  | [] => .ok []
  | n :: ns => do
    let b ← unsignedOperand 8 n
    let bs ← byteOperands ns
    return b :: bs

/-- A command without operands (format Z). -/
def asmZ (i : Instr) : List Int → Except AsmError (List Instr)
  | [] => .ok [i]
  | _ => .error .wrongOperandCount

/-- A command with one byte operand (format B). -/
def asmB (mk : Byte → Instr) : List Int → Except AsmError (List Instr)
  | [n] => do return [mk (← unsignedOperand 8 n)]
  | _ => .error .wrongOperandCount

/-- SETCFG (format C). -/
def asmC : List Int → Except AsmError (List Instr)
  | [n] => do return [.setcfg ((← unsignedOperand 1 n).getLsbD 0)]
  | _ => .error .wrongOperandCount

/-- SETID (format I), the one command that takes a negative number. -/
def asmI : List Int → Except AsmError (List Instr)
  | [n] => if candidateFits n then .ok [.setid n] else .error .doesNotFit
  | _ => .error .wrongOperandCount

/-- `d, fc` and then `rest` bytes (format P, and FRAME.RSP). -/
def asmP (mk : Byte → Byte → List Byte → Except AsmError (List Instr)) :
    List Int → Except AsmError (List Instr)
  | d :: fc :: rest => do mk (← unsignedOperand 8 d) (← unsignedOperand 8 fc) (← byteOperands rest)
  | _ => .error .wrongOperandCount

/-- `d, fc, addr, cnt` (format Q, and FRAME.REQ). -/
def asmQ (mk : Byte → Byte → Word16 → Word16 → List Instr) : List Int → Except AsmError (List Instr)
  | [d, fc, addr, cnt] => do
    return mk (← unsignedOperand 8 d) (← unsignedOperand 8 fc) (← unsignedOperand 16 addr)
      (← unsignedOperand 16 cnt)
  | _ => .error .wrongOperandCount

/-- The mnemonics (R49) and pseudo-commands (R55) with what their operands assemble to. R55 gives LOAD and
CRC.STREAM `k >= 0` bytes and says no bound for FRAME.RSP. DESIGN CHOICE (log 8): `FRAME.RSP d, fc` with no payload
byte is accepted, and assembles to BLD.RSP and APPCRC. -/
def asmTable : List (String × (List Int → Except AsmError (List Instr))) :=
  [ ("CRC.BUF", asmZ .crcBuf), ("CRC.INIT", asmZ .crcInit), ("CRC.BYTE", asmB .crcByte),
    ("BLD.REQ", asmQ fun d fc addr cnt => [.bldReq d fc addr cnt]),
    ("BLD.RSP", asmP fun d fc rest => if rest.isEmpty then .ok [.bldRsp d fc] else .error .wrongOperandCount),
    ("PUSH", asmB .push), ("APPCRC", asmZ .appcrc), ("CLR", asmZ .clr), ("CHK", asmZ .chk),
    ("FLT", asmB .flt), ("FLT.FB", asmZ .fltFb), ("SETID", asmI), ("SETCFG", asmC),
    ("LOAD", fun ns => do return (Pseudo.load (← byteOperands ns)).expand),
    ("CRC.STREAM", fun ns => do return (Pseudo.crcStream (← byteOperands ns)).expand),
    ("FRAME.REQ", asmQ fun d fc addr cnt => (Pseudo.frameReq d fc addr cnt).expand),
    ("FRAME.RSP", asmP fun d fc rest => .ok (Pseudo.frameRsp d fc rest).expand) ]

/-- The text without the spaces at its two ends. -/
def trimSpaces (cs : List Char) : List Char :=
  ((cs.dropWhile (· = ' ')).reverse.dropWhile (· = ' ')).reverse

/-- The text cut at its commas. -/
def splitCommas : List Char → List (List Char)
  | [] => [[]]
  | c :: cs =>
    match splitCommas cs with
    | [] => [[c]]
    | g :: gs => if c = ',' then [] :: g :: gs else (c :: g) :: gs

/-- The numbers of an operand list; an empty list of operands is no operand. -/
def operandNumbers (cs : List Char) : Except AsmError (List Int) :=
  if cs.isEmpty then .ok [] else (splitCommas cs).mapM fun o => numberValue (trimSpaces o)

/-- One line of R54: a command or a pseudo-command, with a comment after `;`. A line that holds only spaces
and a comment assembles to no command (log 8). -/
def assembleLine (line : List Char) : Except AsmError (List Instr) :=
  let text := trimSpaces (line.takeWhile (· ≠ ';'))
  if text.isEmpty then .ok []
  else
    let name := text.takeWhile (· ≠ ' ')
    match asmTable.find? (fun row => row.1.toList = name) with
    | none => .error .unknownMnemonic
    | some row => do row.2 (← operandNumbers (trimSpaces (text.dropWhile (· ≠ ' '))))

end Sys2Proof.Machine
end

