-- ==== Sys2Proof/Machine/Ports.lean ====
section
/-! DEFINITION. What the host reads on the ports between two commands (00_scope.md R8): the status-register
read map (10_state.md R20), the frame buffer port (20_memory.md R30), the response port with the status
codes (60_exceptions.md R120), and `cmd_ready`. All are pure functions of the state: reading has no side
effect (R20, R39). Reads during a command cannot be expressed (R41, R148; log 7). -/

namespace Sys2Proof.Machine

/-- `csr_rdata` for `csr_raddr` (R20); bits that R20 does not name read as 0. -/
def State.csrRead (s : State) (raddr : BitVec 3) : Word16 :=
  match raddr.toNat with
  | 0 => joinBytes (if s.idValid then 0x01#8 else 0x00#8) s.ownId
  | 1 => bitValue s.recoveryEn
  | 2 => bitValue s.halt
  | 3 => lenValue s.len
  | 4 => joinBytes s.accHi s.accLo
  | 5 => s.crcRx
  | 6 => s.crcCalc
  | _ => 0#16

/-- `fb_rdata` for `fb_raddr`: `FB[fb_raddr]`, stale and never written bytes included (R8, R30, R31). -/
def State.fbPort (s : State) (raddr : Byte) : Byte := s.fbByte raddr.toNat

/-- The number of a status (R120). -/
def Status.code : Status → BitVec 4
  | .ok => 0#4
  | .invalidId => 1#4
  | .crcMismatch => 2#4
  | .assert => 3#4
  | .illegal => 4#4
  | .overflow => 5#4
  | .short => 6#4
  | .noid => 7#4
  | .halted => 8#4

/-- `cmd_ready`: between two steps the engine is idle and accepts a command (R6, R8, R131). -/
def State.cmdReady (_ : State) : Bool := true

/-- `rsp_valid`: the last step gave a response (R8). -/
def State.rspValid (s : State) : Bool := s.rsp.isSome

/-- The response port: `rsp_status`, `rsp_value`, `rsp_flush`, when `rsp_valid` is 1 (R8). -/
def State.rspPort (s : State) : Option (BitVec 4 × Word16 × Bool) :=
  s.rsp.map fun r => (r.status.code, r.value, r.flush)

end Sys2Proof.Machine
end

