-- ==== Sys2Proof/Safety.lean ====
section
/-! DEFINITION. What claims mean by a safe machine: the invariants of every reachable state
(70_reset_and_hazards.md R143) with the canonical form of the buffer, and the bytes below LEN written
(40_common_semantics.md R56, 70_reset_and_hazards.md R141). -/

namespace Sys2Proof.Machine

/-- R143(a): `0 <= LEN <= 256`. -/
def State.lenInRange (s : State) : Prop := s.len.toNat ≤ Config.frameMax

/-- R143(b): an identifier that is valid is at most 247. -/
def State.idInRange (s : State) : Prop := s.idValid = true → s.ownId.toNat ≤ Config.idMax

/-- R56, R141: every byte below LEN has been written since reset. -/
def State.frameWritten (s : State) : Prop := ∀ a, a < s.len.toNat → (s.fb.read a).isSome = true

/-- The invariant of every reachable state: R143(a), R143(b), the frame written (R56, R141), and the buffer's list
in canonical form, which is the model's own form of the buffer (log 3). -/
structure State.Inv (s : State) : Prop where
  lenInRange : s.lenInRange
  idInRange : s.idInRange
  frameWritten : s.frameWritten
  fbCanonical : s.fb.wf = true

/-- The bytes `FB[0..n-1]`. -/
def State.prefixBytes (s : State) (n : Nat) : List Byte := (List.range n).map s.fbByte

/-- The current frame, `FB[0..LEN-1]` (R31). -/
def State.frame (s : State) : List Byte := s.prefixBytes s.len.toNat

/-- A sequence of commands, each executed after the one before it (R40, R55), stopping at a fault. -/
def execAll : List Instr → State → Result
  | [], s => .next s
  | i :: rest, s =>
    match exec i s with
    | .next t => execAll rest t
    | .fault f => .fault f
    | .refused r => .refused r

end Sys2Proof.Machine
end

