-- ==== Sys2Proof/Certificates/Slice0/Obligations.lean ====
section
/-! DEFINITION. The statements for the provers, from the numbered rules of spec/. Where a statement says
that nothing else changes, it gives the whole next state as the old one with the changed fields, and says of
the buffer byte by byte what reads as before. -/

open Sys2Proof Sys2Proof.Machine

namespace Sys2Proof.Claims

/-- Every byte of the buffer reads as before. -/
def SameBytes (s t : State) : Prop := ∀ a, t.fbByte a = s.fbByte a

/-- Every byte outside the `count` bytes from `first` on reads as before. -/
def SameBytesOutside (s t : State) (first count : Nat) : Prop :=
  ∀ a, a < first ∨ first + count ≤ a → t.fbByte a = s.fbByte a

/-- The thirteen assigned opcodes (R51). -/
def assignedOpcodes : List Byte :=
  [0x10#8, 0x11#8, 0x12#8, 0x20#8, 0x21#8, 0x22#8, 0x23#8, 0x24#8, 0x30#8, 0x40#8, 0x41#8, 0x50#8, 0x51#8]

/-- Step 3 of R127: the status that a command's own tests give, in the order R127 lists them. -/
def ownStatus (s : State) : Instr → Status
  | .bldReq d _ _ _ => if 247 < d.toNat then .assert else .ok
  | .bldRsp d _ => if 247 < d.toNat then .assert else .ok
  | .push _ => if s.len.toNat = 256 then .overflow else .ok
  | .appcrc => if 254 < s.len.toNat then .overflow else .ok
  | .chk =>
    if s.len.toNat < 2 then .short
    else if s.fbByte (s.len.toNat - 2) ++ s.fbByte (s.len.toNat - 1) ≠ checksum (s.prefixBytes (s.len.toNat - 2))
    then .crcMismatch else .ok
  | .flt _ => if s.idValid = false then .noid else .ok
  | .fltFb => if s.idValid = false then .noid else if s.len.toNat = 0 then .short else .ok
  | .setid c => if c < 0 ∨ 247 < c then .invalidId else .ok
  | .crcBuf => .ok
  | .crcInit => .ok
  | .crcByte _ => .ok
  | .clr => .ok
  | .setcfg _ => .ok

/-- TABLE_HI as R61 prints it. -/
def printedTableHi : List Nat :=
  [0x00, 0xC1, 0x81, 0x40, 0x01, 0xC0, 0x80, 0x41, 0x01, 0xC0, 0x80, 0x41, 0x00, 0xC1, 0x81, 0x40] ++
  [0x01, 0xC0, 0x80, 0x41, 0x00, 0xC1, 0x81, 0x40, 0x00, 0xC1, 0x81, 0x40, 0x01, 0xC0, 0x80, 0x41] ++
  [0x01, 0xC0, 0x80, 0x41, 0x00, 0xC1, 0x81, 0x40, 0x00, 0xC1, 0x81, 0x40, 0x01, 0xC0, 0x80, 0x41] ++
  [0x00, 0xC1, 0x81, 0x40, 0x01, 0xC0, 0x80, 0x41, 0x01, 0xC0, 0x80, 0x41, 0x00, 0xC1, 0x81, 0x40] ++
  [0x01, 0xC0, 0x80, 0x41, 0x00, 0xC1, 0x81, 0x40, 0x00, 0xC1, 0x81, 0x40, 0x01, 0xC0, 0x80, 0x41] ++
  [0x00, 0xC1, 0x81, 0x40, 0x01, 0xC0, 0x80, 0x41, 0x01, 0xC0, 0x80, 0x41, 0x00, 0xC1, 0x81, 0x40] ++
  [0x00, 0xC1, 0x81, 0x40, 0x01, 0xC0, 0x80, 0x41, 0x01, 0xC0, 0x80, 0x41, 0x00, 0xC1, 0x81, 0x40] ++
  [0x01, 0xC0, 0x80, 0x41, 0x00, 0xC1, 0x81, 0x40, 0x00, 0xC1, 0x81, 0x40, 0x01, 0xC0, 0x80, 0x41] ++
  [0x01, 0xC0, 0x80, 0x41, 0x00, 0xC1, 0x81, 0x40, 0x00, 0xC1, 0x81, 0x40, 0x01, 0xC0, 0x80, 0x41] ++
  [0x00, 0xC1, 0x81, 0x40, 0x01, 0xC0, 0x80, 0x41, 0x01, 0xC0, 0x80, 0x41, 0x00, 0xC1, 0x81, 0x40] ++
  [0x00, 0xC1, 0x81, 0x40, 0x01, 0xC0, 0x80, 0x41, 0x01, 0xC0, 0x80, 0x41, 0x00, 0xC1, 0x81, 0x40] ++
  [0x01, 0xC0, 0x80, 0x41, 0x00, 0xC1, 0x81, 0x40, 0x00, 0xC1, 0x81, 0x40, 0x01, 0xC0, 0x80, 0x41] ++
  [0x00, 0xC1, 0x81, 0x40, 0x01, 0xC0, 0x80, 0x41, 0x01, 0xC0, 0x80, 0x41, 0x00, 0xC1, 0x81, 0x40] ++
  [0x01, 0xC0, 0x80, 0x41, 0x00, 0xC1, 0x81, 0x40, 0x00, 0xC1, 0x81, 0x40, 0x01, 0xC0, 0x80, 0x41] ++
  [0x01, 0xC0, 0x80, 0x41, 0x00, 0xC1, 0x81, 0x40, 0x00, 0xC1, 0x81, 0x40, 0x01, 0xC0, 0x80, 0x41] ++
  [0x00, 0xC1, 0x81, 0x40, 0x01, 0xC0, 0x80, 0x41, 0x01, 0xC0, 0x80, 0x41, 0x00, 0xC1, 0x81, 0x40]

/-- TABLE_LO as R61 prints it. -/
def printedTableLo : List Nat :=
  [0x00, 0xC0, 0xC1, 0x01, 0xC3, 0x03, 0x02, 0xC2, 0xC6, 0x06, 0x07, 0xC7, 0x05, 0xC5, 0xC4, 0x04] ++
  [0xCC, 0x0C, 0x0D, 0xCD, 0x0F, 0xCF, 0xCE, 0x0E, 0x0A, 0xCA, 0xCB, 0x0B, 0xC9, 0x09, 0x08, 0xC8] ++
  [0xD8, 0x18, 0x19, 0xD9, 0x1B, 0xDB, 0xDA, 0x1A, 0x1E, 0xDE, 0xDF, 0x1F, 0xDD, 0x1D, 0x1C, 0xDC] ++
  [0x14, 0xD4, 0xD5, 0x15, 0xD7, 0x17, 0x16, 0xD6, 0xD2, 0x12, 0x13, 0xD3, 0x11, 0xD1, 0xD0, 0x10] ++
  [0xF0, 0x30, 0x31, 0xF1, 0x33, 0xF3, 0xF2, 0x32, 0x36, 0xF6, 0xF7, 0x37, 0xF5, 0x35, 0x34, 0xF4] ++
  [0x3C, 0xFC, 0xFD, 0x3D, 0xFF, 0x3F, 0x3E, 0xFE, 0xFA, 0x3A, 0x3B, 0xFB, 0x39, 0xF9, 0xF8, 0x38] ++
  [0x28, 0xE8, 0xE9, 0x29, 0xEB, 0x2B, 0x2A, 0xEA, 0xEE, 0x2E, 0x2F, 0xEF, 0x2D, 0xED, 0xEC, 0x2C] ++
  [0xE4, 0x24, 0x25, 0xE5, 0x27, 0xE7, 0xE6, 0x26, 0x22, 0xE2, 0xE3, 0x23, 0xE1, 0x21, 0x20, 0xE0] ++
  [0xA0, 0x60, 0x61, 0xA1, 0x63, 0xA3, 0xA2, 0x62, 0x66, 0xA6, 0xA7, 0x67, 0xA5, 0x65, 0x64, 0xA4] ++
  [0x6C, 0xAC, 0xAD, 0x6D, 0xAF, 0x6F, 0x6E, 0xAE, 0xAA, 0x6A, 0x6B, 0xAB, 0x69, 0xA9, 0xA8, 0x68] ++
  [0x78, 0xB8, 0xB9, 0x79, 0xBB, 0x7B, 0x7A, 0xBA, 0xBE, 0x7E, 0x7F, 0xBF, 0x7D, 0xBD, 0xBC, 0x7C] ++
  [0xB4, 0x74, 0x75, 0xB5, 0x77, 0xB7, 0xB6, 0x76, 0x72, 0xB2, 0xB3, 0x73, 0xB1, 0x71, 0x70, 0xB0] ++
  [0x50, 0x90, 0x91, 0x51, 0x93, 0x53, 0x52, 0x92, 0x96, 0x56, 0x57, 0x97, 0x55, 0x95, 0x94, 0x54] ++
  [0x9C, 0x5C, 0x5D, 0x9D, 0x5F, 0x9F, 0x9E, 0x5E, 0x5A, 0x9A, 0x9B, 0x5B, 0x99, 0x59, 0x58, 0x98] ++
  [0x88, 0x48, 0x49, 0x89, 0x4B, 0x8B, 0x8A, 0x4A, 0x4E, 0x8E, 0x8F, 0x4F, 0x8D, 0x4D, 0x4C, 0x8C] ++
  [0x44, 0x84, 0x85, 0x45, 0x87, 0x47, 0x46, 0x86, 0x82, 0x42, 0x43, 0x83, 0x41, 0x81, 0x80, 0x40]

end Sys2Proof.Claims

open Sys2Proof.Claims

/-! ### Encoding -/

/-- R46 to R49: the decoder gives back every command that its word spells, with every operand. -/
def Obligations.DecodeOfEncodeIsTheCommand : Prop :=
  ∀ i : Instr, i.wellFormed = true → decode (encode i) = .command i

/-- R49, R50: a word that decodes to a command is that command's one spelling, and its operands fit. -/
def Obligations.DecodedWordIsTheOnlySpelling : Prop :=
  ∀ (w : Word64) (i : Instr), decode w = .command i → encode i = w ∧ i.wellFormed = true

/-- R49, R50: the decoder, which goes by formats, is the decoder by match and mask; no word matches two rows. -/
def Obligations.DecoderIsTheMatchAndMaskTable : Prop :=
  (∀ (w : Word64) (i : Instr), decode w = .command i →
    ∃ row ∈ maskTable, row.mnemonic = i.mnemonic ∧ w &&& row.mask = row.pattern) ∧
  (∀ (w : Word64) (row : MaskRow), row ∈ maskTable → w &&& row.mask = row.pattern →
    ∃ i, decode w = .command i ∧ i.mnemonic = row.mnemonic) ∧
  (∀ (w : Word64) (row row' : MaskRow), row ∈ maskTable → row' ∈ maskTable →
    w &&& row.mask = row.pattern → w &&& row'.mask = row'.pattern → row = row')

/-- R51: the two kinds of illegal word, the 243 unassigned opcodes, and the all-zeros and all-ones words. -/
def Obligations.IllegalWordsAreOfTwoKinds : Prop :=
  (∀ w : Word64, decode w = .illegal .unassignedOpcode ↔ w.extractLsb' 56 8 ∉ assignedOpcodes) ∧
  (∀ w : Word64, decode w = .illegal .reservedField ↔
    w.extractLsb' 56 8 ∈ assignedOpcodes ∧ ∀ row ∈ maskTable, w &&& row.mask ≠ row.pattern) ∧
  ((List.range 256).filter fun n => BitVec.ofNat 8 n ∉ assignedOpcodes).length = 243 ∧
  decode 0x0000000000000000#64 = .illegal .unassignedOpcode ∧
  decode 0xFFFFFFFFFFFFFFFF#64 = .illegal .unassignedOpcode

/-- The worked encodings of 30_encoding.md section 6 decode as it says. -/
def Obligations.WorkedEncodingsDecode : Prop :=
  decode 0x2011030013000200#64 = .command (.bldReq 17 3 0x0013 0x0002) ∧
  decode 0x2111030000000000#64 = .command (.bldRsp 17 3) ∧
  decode 0x2241000000000000#64 = .command (.push 0x41) ∧
  decode 0x2300000000000000#64 = .command .appcrc ∧
  decode 0x2400000000000000#64 = .command .clr ∧
  decode 0x3000000000000000#64 = .command .chk ∧
  decode 0x4005000000000000#64 = .command (.flt 5) ∧
  decode 0x4100000000000000#64 = .command .fltFb ∧
  decode 0x5000000005000000#64 = .command (.setid 5) ∧
  decode 0x500000FFFF000000#64 = .command (.setid (-1)) ∧
  decode 0x50000000F8000000#64 = .command (.setid 248) ∧
  decode 0x5101000000000000#64 = .command (.setcfg true) ∧
  decode 0x1000000000000000#64 = .command .crcBuf ∧
  decode 0x1100000000000000#64 = .command .crcInit ∧
  decode 0x1202000000000000#64 = .command (.crcByte 2) ∧
  decode 0x0000000000000000#64 = .illegal .unassignedOpcode ∧
  decode 0x3000000000000001#64 = .illegal .reservedField ∧
  decode 0x5102000000000000#64 = .illegal .reservedField ∧
  decode 0x5001000005000000#64 = .illegal .reservedField

/-- R54: lines of the textual syntax assemble to the worked words, and an operand that does not fit is an
error, not a command. That `PUSH -1` is this error is the model's choice (log 8): R54 says of negative numbers only
that SETID alone takes one. -/
def Obligations.AssemblyLinesGiveTheWords : Prop :=
  (assembleLine "BLD.REQ 17, 3, 0x0013, 0x0002".toList).map (List.map encode) = .ok [0x2011030013000200#64] ∧
  (assembleLine "BLD.RSP 17, 3 ; a response".toList).map (List.map encode) = .ok [0x2111030000000000#64] ∧
  (assembleLine "SETID -1".toList).map (List.map encode) = .ok [0x500000FFFF000000#64] ∧
  (assembleLine "SETCFG 1".toList).map (List.map encode) = .ok [0x5101000000000000#64] ∧
  (assembleLine "FLT.FB".toList).map (List.map encode) = .ok [0x4100000000000000#64] ∧
  (assembleLine "FRAME.REQ 17, 3, 0x0013, 0x0002".toList).map (List.map encode) =
    .ok [0x2011030013000200#64, 0x2300000000000000#64] ∧
  assembleLine "PUSH 256".toList = .error .doesNotFit ∧
  assembleLine "PUSH -1".toList = .error .doesNotFit ∧
  assembleLine "SETID 40000".toList = .error .doesNotFit

/-! ### The step and the common prologue -/

/-- R56: when the presented word decodes to a command, the step is that command's meaning on the state with
the word taken off the port. The list of what the host presents is the model's (log 1). -/
def Obligations.StepRunsThePresentedCommand : Prop :=
  ∀ (s : State) (w : Word64) (rest : List Input) (i : Instr),
    s.inputs = .command w :: rest → decode w = .command i →
      step s = exec i { s with inputs := rest }

/-- R50, R123: an illegal word presented to a machine that is not halted is answered ILLEGAL; only the word is
taken off the port, which is a list of the model's (log 1), and the machine is still not halted. -/
def Obligations.IllegalWordIsAnsweredIllegal : Prop :=
  ∀ (s : State) (w : Word64) (rest : List Input) (why : Illegal),
    s.halt = false → s.inputs = .command w :: rest → decode w = .illegal why →
      step s = .next { s with inputs := rest, rsp := some ⟨.illegal, 0#16, false⟩ }

/-- R126: while HALT = 1 every word, legal or not, is answered (HALTED, 0, 0) with nothing changed, and the
read ports keep reading what they read. -/
def Obligations.HaltedMachineAnswersHalted : Prop :=
  ∀ (s : State) (w : Word64), s.halt = true →
    ∃ t, acceptWord w s = .next t ∧ t = { s with rsp := some ⟨.halted, 0#16, false⟩ } ∧
      (∀ a : BitVec 3, t.csrRead a = s.csrRead a) ∧ (∀ a : Byte, t.fbPort a = s.fbPort a)

/-- R143(c), R131: a halted machine keeps every item of its state at every step but a reset. Reset as one of the
things presented, and the step with nothing presented, are the model's (log 2). -/
def Obligations.HaltedStateStaysUntilReset : Prop :=
  ∀ s t : State, s.halt = true → step s = .next t →
    t.toEngine = s.toEngine ∨ ∃ rest, s.inputs = .reset :: rest

/-- R127: the status of the answer to any word: HALTED, then ILLEGAL, then the command's own tests in their
order, then OK; the value of every answer but OK is 0, and no answer but CRC_MISMATCH asks for a flush. -/
def Obligations.TestsAreMadeInTheFixedOrder : Prop :=
  ∀ (s : State) (w : Word64), s.lenInRange →
    ∃ t r, acceptWord w s = .next t ∧ t.rsp = some r ∧
      r.status =
        (if s.halt = true then .halted
        else match decode w with
          | .illegal _ => .illegal
          | .command i => ownStatus s i) ∧
      (r.status ≠ .ok → r.value = 0#16) ∧ (r.status ≠ .crcMismatch → r.flush = false)

/-- R56, R120: with LEN in range, every step on a command word completes with a response. That a step on a reset,
or with nothing presented, completes too and leaves no response is the model's choice of such steps (log 2), with
R8 (one response for each accepted command) and R140 (none pending after reset). -/
def Obligations.EveryStepCompletes : Prop :=
  ∀ s : State, s.lenInRange →
    ∃ t, step s = .next t ∧ (t.rsp.isSome = true ↔ ∃ w rest, s.inputs = .command w :: rest)

/-- R32: no command is refused, and a command stops exactly when it reaches an address outside the buffer,
which needs LEN > 256 (a state that R12 says is never reached; stopping there is the model's choice, log 4). -/
def Obligations.FaultsAreExactlyLenOutOfRange : Prop :=
  ∀ (i : Instr) (s : State),
    (∀ r, exec i s ≠ .refused r) ∧
    ∀ f, exec i s = .fault f ↔
      f = .noSuchFrameByte ∧ s.halt = false ∧ 256 < s.len.toNat ∧ i.mnemonic ∈ ["CRC.BUF", "PUSH", "CHK"]

/-! ### The whole machine -/

/-- Every step keeps LEN in 0..256 and a valid identifier at most 247 (R143(a), (b)) and every byte below LEN
written since reset (R56, R141). That it keeps the buffer's list in canonical form, addresses strictly rising, is of
the model's choice of that form (log 3; from the spec, R30, come only the addresses below 256). The steps are a
command, a reset, and the model's step with nothing presented (log 2). -/
def Obligations.EveryStepKeepsTheInvariant : Prop :=
  ∀ s t : State, s.Inv → step s = .next t → t.Inv

/-- The reset state meets the invariant: R143(a), (b), and the frame written (R56, R141), by R23's LEN = 0 and
ID_VALID = 0. That the buffer is in canonical form is of the model's choice of that form (log 3). -/
def Obligations.ResetStateMeetsTheInvariant : Prop := State.reset.Inv

/-- R129: what an answer other than OK leaves of the ten items. -/
def Obligations.ErrorAnswersArePrecise : Prop :=
  ∀ (s t : State) (w : Word64) (r : Response), acceptWord w s = .next t → t.rsp = some r → r.status ≠ .ok →
    (r.status ≠ .crcMismatch → r.status ≠ .assert → t.toEngine = s.toEngine) ∧
    (r.status = .crcMismatch →
      t.toEngine = { s.toEngine with
        crcRx := t.crcRx, crcCalc := t.crcCalc, accHi := t.accHi, accLo := t.accLo }) ∧
    (r.status = .assert → t.toEngine = { s.toEngine with halt := true })

/-- R120: the value of every answer other than OK is 0; who raises each status and when; the codes. -/
def Obligations.StatusesAreRaisedAsTheTableSays : Prop :=
  (∀ (i : Instr) (s t : State) (r : Response), exec i s = .next t → t.rsp = some r →
    (r.status ≠ .ok → r.value = 0#16) ∧
    (r.status = .invalidId → ∃ c, i = .setid c ∧ ¬ (0 ≤ c ∧ c ≤ 247)) ∧
    (r.status = .crcMismatch → i = .chk) ∧
    (r.status = .assert → ∃ d : Byte, 248 ≤ d.toNat ∧
      ((∃ fc addr cnt, i = .bldReq d fc addr cnt) ∨ ∃ fc, i = .bldRsp d fc)) ∧
    (r.status = .overflow → (∃ b, i = .push b) ∧ s.len.toNat = 256 ∨ i = .appcrc ∧ 254 < s.len.toNat) ∧
    (r.status = .short → i = .chk ∧ s.len.toNat < 2 ∨ i = .fltFb ∧ s.len.toNat = 0) ∧
    (r.status = .noid → i.mnemonic ∈ ["FLT", "FLT.FB"] ∧ s.idValid = false) ∧
    (r.status = .halted → s.halt = true) ∧
    r.status ≠ .illegal) ∧
  [Status.ok, .invalidId, .crcMismatch, .assert, .illegal, .overflow, .short, .noid, .halted].map Status.code =
    [0#4, 1#4, 2#4, 3#4, 4#4, 5#4, 6#4, 7#4, 8#4] ∧
  ∀ st : Status, st.code.toNat ≤ 8

/-- R93: the flush request is 1 exactly in the answer of a CHK that mismatched with RECOVERY_EN = 1; it is not
latched, no later command sees it. -/
def Obligations.FlushRequestOnlyOnMismatch : Prop :=
  ∀ (s t : State) (w : Word64) (r : Response), acceptWord w s = .next t → t.rsp = some r →
    (r.flush = true ↔ decode w = .command .chk ∧ r.status = .crcMismatch ∧ s.recoveryEn = true) ∧
    ∀ w', acceptWord w' { t with rsp := some { r with flush := !r.flush } } = acceptWord w' t

/-- R10, R24: the commands that can change each item; no command changes what the host presents or the count of
resets, which are the model's own fields (log 1). -/
def Obligations.OnlyTheseCommandsWriteEachItem : Prop :=
  ∀ (i : Instr) (s t : State), exec i s = .next t →
    ((∃ a, t.fbByte a ≠ s.fbByte a) → i.mnemonic ∈ ["BLD.REQ", "BLD.RSP", "PUSH", "APPCRC"]) ∧
    (t.len ≠ s.len → i.mnemonic ∈ ["BLD.REQ", "BLD.RSP", "PUSH", "APPCRC", "CLR"]) ∧
    (t.accHi ≠ s.accHi ∨ t.accLo ≠ s.accLo →
      i.mnemonic ∈ ["CRC.INIT", "CRC.BYTE", "CRC.BUF", "APPCRC", "CHK"]) ∧
    (t.ownId ≠ s.ownId ∨ t.idValid ≠ s.idValid → i.mnemonic = "SETID") ∧
    (t.recoveryEn ≠ s.recoveryEn → i.mnemonic = "SETCFG") ∧
    (t.crcRx ≠ s.crcRx ∨ t.crcCalc ≠ s.crcCalc → i.mnemonic = "CHK") ∧
    (t.halt ≠ s.halt → i.mnemonic ∈ ["BLD.REQ", "BLD.RSP"]) ∧
    t.inputs = s.inputs ∧ t.resets = s.resets

/-- R24, R14, R11, R18, R12: a register that is not in a command's read set makes no difference to it, but that it may
stay as it was. (RECOVERY_EN has its own statement.) -/
def Obligations.OnlyTheseCommandsReadEachItem : Prop :=
  ∀ (i : Instr) (s t : State), exec i s = .next t →
    (i.mnemonic ∉ ["FLT", "FLT.FB"] → ∀ own valid, ∃ t', exec i { s with ownId := own, idValid := valid } = .next t' ∧
      { t' with ownId := t.ownId, idValid := t.idValid } = t) ∧
    (i.mnemonic ≠ "CRC.BYTE" → ∀ hi lo, ∃ t', exec i { s with accHi := hi, accLo := lo } = .next t' ∧
      { t' with accHi := t.accHi, accLo := t.accLo } = t) ∧
    (i.mnemonic ∉ ["CRC.BUF", "PUSH", "APPCRC", "CHK", "FLT.FB"] → ∀ n, ∃ t', exec i { s with len := n } = .next t' ∧
      { t' with len := t.len } = t) ∧
    ∀ rx recomputed, ∃ t', exec i { s with crcRx := rx, crcCalc := recomputed } = .next t' ∧
      { t' with crcRx := t.crcRx, crcCalc := t.crcCalc } = t

/-- R31: two buffers with the same current frame are the same to every command: the answer and every register
agree, and each byte is written alike in both or kept in both. The buffer as a list is the model's form (log 3). -/
def Obligations.StaleBytesReachNoCommand : Prop :=
  ∀ (i : Instr) (s t : State) (m : Memory), exec i s = .next t →
    (∀ a, a < s.len.toNat → State.fbByte { s with fb := m } a = s.fbByte a) →
    ∃ t', exec i { s with fb := m } = .next t' ∧ { t' with fb := t.fb } = t ∧
      ∀ a, t'.fbByte a = t.fbByte a ∨
        t'.fbByte a = State.fbByte { s with fb := m } a ∧ t.fbByte a = s.fbByte a

/-- R21(c): no step reads the response of an earlier one, which the model holds in a field of its own (log 1). -/
def Obligations.ResponsesAreNotLatched : Prop :=
  ∀ (s : State) (x : Option Response), step { s with rsp := x } = step s

/-- R56, R141: no command's answer or next state depends on a byte that was never written: with another draw
of the reset contents the same happens, from any state that meets the invariant. The draw by a count of resets is
the model's form of it (log 3). -/
def Obligations.UnwrittenBytesReachNoCommand : Prop :=
  ∀ (i : Instr) (s t : State) (n : Nat), s.Inv → exec i s = .next t →
    exec i { s with resets := n } = .next { t with resets := n }

/-- R16: the recovery switch changes nothing of what any command but SETCFG does, but for the flush bit. -/
def Obligations.RecoverySwitchGatesOnlyTheFlush : Prop :=
  ∀ (i : Instr) (s t : State) (en : Bool), i.mnemonic ≠ "SETCFG" → exec i s = .next t →
    ∃ r f, t.rsp = some r ∧
      exec i { s with recoveryEn := en } =
        .next { t with recoveryEn := en, rsp := some { r with flush := f } }

/-- R146: CRC.BUF, APPCRC and CHK start from the seed: unless they end in an error that changes nothing, what
the accumulators held before makes no difference. -/
def Obligations.WholeFrameChecksumsStartFromTheSeed : Prop :=
  ∀ (i : Instr) (s t : State) (r : Response) (hi lo : Byte), i.mnemonic ∈ ["CRC.BUF", "APPCRC", "CHK"] →
    exec i s = .next t → t.rsp = some r → r.status = .ok ∨ r.status = .crcMismatch →
      exec i { s with accHi := hi, accLo := lo } = .next t

/-! ### Reset -/

/-- R23: the state after reset; every byte of the buffer is unspecified, and in the model's form of that it reads as
the free value (log 3). -/
def Obligations.ResetStateIsAsTheTableSays : Prop :=
  State.reset.len = 0#9 ∧ State.reset.accHi = 0xFF#8 ∧ State.reset.accLo = 0xFF#8 ∧
  State.reset.ownId = 0x00#8 ∧ State.reset.idValid = false ∧ State.reset.recoveryEn = false ∧
  State.reset.crcRx = 0x0000#16 ∧ State.reset.crcCalc = 0x0000#16 ∧ State.reset.halt = false ∧
  ∀ a, State.reset.fbByte a = Config.fbResetByte State.reset.resets a

/-- R140, R141, R131: a reset presented in any state, halted or not, gives the reset values, leaves no
response pending, and draws every byte of the buffer anew. Reset as a step of its own is the model's (log 2), and
so is the form of the draw (log 3). -/
def Obligations.ResetInputGivesTheResetState : Prop :=
  ∀ (s : State) (rest : List Input), s.inputs = .reset :: rest →
    ∃ t, step s = .next t ∧ t.toEngine = State.reset.toEngine ∧ t.rsp = none ∧ t.inputs = rest ∧
      ∀ a, t.fbByte a = Config.fbResetByte (s.resets + 1) a

/-- R15, R17, R140: reset is the only way to clear HALT and the only way to clear ID_VALID. Reset as one of the
things presented is the model's (log 2). -/
def Obligations.OnlyResetClearsHaltAndIdValid : Prop :=
  ∀ s t : State, step s = .next t →
    (s.halt = true ∧ t.halt = false) ∨ (s.idValid = true ∧ t.idValid = false) →
      ∃ rest, s.inputs = .reset :: rest

/-! ### The commands, on a machine that is not halted -/

/-- R65. -/
def Obligations.CrcBufAnswersTheFrameChecksum : Prop :=
  decode 0x1000000000000000#64 = .command .crcBuf ∧
  ∀ s : State, s.halt = false → s.lenInRange →
    ∃ t, exec .crcBuf s = .next t ∧ SameBytes s t ∧
      t = { s with
        accHi := (checksum s.frame).extractLsb' 8 8, accLo := (checksum s.frame).extractLsb' 0 8,
        rsp := some ⟨.ok, checksum s.frame, false⟩ }

/-- R66. -/
def Obligations.CrcInitSeedsTheAccumulators : Prop :=
  decode 0x1100000000000000#64 = .command .crcInit ∧
  ∀ s : State, s.halt = false →
    ∃ t, exec .crcInit s = .next t ∧ SameBytes s t ∧
      t = { s with accHi := 0xFF#8, accLo := 0xFF#8, rsp := some ⟨.ok, 0xFFFF#16, false⟩ }

/-- R67, with the equations of R62. -/
def Obligations.CrcByteTakesOneStep : Prop :=
  (∀ b : Byte, decode (0x12#8 ++ b ++ 0x000000000000#48) = .command (.crcByte b)) ∧
  ∀ (s : State) (b : Byte), s.halt = false →
    ∃ t, exec (.crcByte b) s = .next t ∧ SameBytes s t ∧
      t = { s with
        accHi := s.accLo ^^^ tableHi (s.accHi ^^^ b), accLo := tableLo (s.accHi ^^^ b),
        rsp := some ⟨.ok, (s.accLo ^^^ tableHi (s.accHi ^^^ b)) ++ tableLo (s.accHi ^^^ b), false⟩ }

/-- R75, with R80 and R34: the request basis, or ASSERT. -/
def Obligations.BldReqLaysOutTheRequestBasis : Prop :=
  (∀ (d fc : Byte) (addr cnt : Word16),
    decode (0x20#8 ++ d ++ fc ++ addr ++ cnt ++ 0x00#8) = .command (.bldReq d fc addr cnt)) ∧
  (∀ (s : State) (d fc : Byte) (addr cnt : Word16), s.halt = false → d.toNat ≤ 247 →
    ∃ t, exec (.bldReq d fc addr cnt) s = .next t ∧
      t.fbByte 0 = d ∧ t.fbByte 1 = fc ∧
      t.fbByte 2 = addr.extractLsb' 8 8 ∧ t.fbByte 3 = addr.extractLsb' 0 8 ∧
      t.fbByte 4 = cnt.extractLsb' 8 8 ∧ t.fbByte 5 = cnt.extractLsb' 0 8 ∧
      SameBytesOutside s t 0 6 ∧
      t = { s with fb := t.fb, len := 6#9, rsp := some ⟨.ok, 6#16, false⟩ }) ∧
  (∀ (s : State) (d fc : Byte) (addr cnt : Word16), s.halt = false → 248 ≤ d.toNat →
    exec (.bldReq d fc addr cnt) s = .next { s with halt := true, rsp := some ⟨.assert, 0#16, false⟩ })

/-- R76, with R80 and R34: the response basis, or ASSERT. -/
def Obligations.BldRspLaysOutTheResponseBasis : Prop :=
  (∀ d fc : Byte, decode (0x21#8 ++ d ++ fc ++ 0x0000#16 ++ 0x0000#16 ++ 0x00#8) = .command (.bldRsp d fc)) ∧
  (∀ (s : State) (d fc : Byte), s.halt = false → d.toNat ≤ 247 →
    ∃ t, exec (.bldRsp d fc) s = .next t ∧
      t.fbByte 0 = d ∧ t.fbByte 1 = fc ∧ SameBytesOutside s t 0 2 ∧
      t = { s with fb := t.fb, len := 2#9, rsp := some ⟨.ok, 2#16, false⟩ }) ∧
  (∀ (s : State) (d fc : Byte), s.halt = false → 248 ≤ d.toNat →
    exec (.bldRsp d fc) s = .next { s with halt := true, rsp := some ⟨.assert, 0#16, false⟩ })

/-- R77: one byte at FB[LEN] and LEN + 1, or OVERFLOW on a full buffer. -/
def Obligations.PushAppendsOneByte : Prop :=
  (∀ b : Byte, decode (0x22#8 ++ b ++ 0x000000000000#48) = .command (.push b)) ∧
  (∀ (s : State) (b : Byte), s.halt = false → s.len.toNat < 256 →
    ∃ t, exec (.push b) s = .next t ∧
      t.fbByte s.len.toNat = b ∧ SameBytesOutside s t s.len.toNat 1 ∧ t.len.toNat = s.len.toNat + 1 ∧
      t = { s with fb := t.fb, len := t.len, rsp := some ⟨.ok, BitVec.ofNat 16 (s.len.toNat + 1), false⟩ }) ∧
  (∀ (s : State) (b : Byte), s.halt = false → s.len.toNat = 256 →
    exec (.push b) s = .next { s with rsp := some ⟨.overflow, 0#16, false⟩ })

/-- R78: the checksum of the frame behind it, high byte first, LEN + 2 and the accumulators, or OVERFLOW. -/
def Obligations.AppcrcAppendsTheFrameChecksum : Prop :=
  decode 0x2300000000000000#64 = .command .appcrc ∧
  (∀ s : State, s.halt = false → s.len.toNat ≤ 254 →
    ∃ t, exec .appcrc s = .next t ∧
      t.fbByte s.len.toNat = (checksum s.frame).extractLsb' 8 8 ∧
      t.fbByte (s.len.toNat + 1) = (checksum s.frame).extractLsb' 0 8 ∧
      SameBytesOutside s t s.len.toNat 2 ∧ t.len.toNat = s.len.toNat + 2 ∧
      t = { s with
        fb := t.fb, len := t.len,
        accHi := (checksum s.frame).extractLsb' 8 8, accLo := (checksum s.frame).extractLsb' 0 8,
        rsp := some ⟨.ok, BitVec.ofNat 16 (s.len.toNat + 2), false⟩ }) ∧
  (∀ s : State, s.halt = false → 254 < s.len.toNat →
    exec .appcrc s = .next { s with rsp := some ⟨.overflow, 0#16, false⟩ })

/-- R79. -/
def Obligations.ClrEmptiesTheFrame : Prop :=
  decode 0x2400000000000000#64 = .command .clr ∧
  ∀ s : State, s.halt = false →
    ∃ t, exec .clr s = .next t ∧ SameBytes s t ∧
      t = { s with len := 0#9, rsp := some ⟨.ok, 0#16, false⟩ }

/-- R90, with R91 to R95: SHORT below two bytes; else the last two bytes, big-endian, against the checksum of
those before them. Neither a match nor a mismatch writes the buffer or LEN. -/
def Obligations.ChkComparesTheTrailingChecksum : Prop :=
  decode 0x3000000000000000#64 = .command .chk ∧
  (∀ s : State, s.halt = false → s.len.toNat < 2 →
    exec .chk s = .next { s with rsp := some ⟨.short, 0#16, false⟩ }) ∧
  (∀ (s : State) (received recomputed : Word16), s.halt = false → 2 ≤ s.len.toNat → s.lenInRange →
    received = s.fbByte (s.len.toNat - 2) ++ s.fbByte (s.len.toNat - 1) →
    recomputed = checksum (s.prefixBytes (s.len.toNat - 2)) →
    ∃ t, exec .chk s = .next t ∧ SameBytes s t ∧
      t = { s with
        crcRx := received, crcCalc := recomputed,
        accHi := recomputed.extractLsb' 8 8, accLo := recomputed.extractLsb' 0 8,
        rsp := some (if received = recomputed then ⟨.ok, BitVec.ofNat 16 s.len.toNat, false⟩
          else ⟨.crcMismatch, 0#16, s.recoveryEn⟩) })

/-- R101, with R100 and R103: 1 for accept and 0 for reject, or NOID; nothing is written. -/
def Obligations.FltAnswersTheFilter : Prop :=
  (∀ d : Byte, decode (0x40#8 ++ d ++ 0x000000000000#48) = .command (.flt d)) ∧
  (∀ (s : State) (d : Byte), s.halt = false → s.idValid = true →
    ∃ t, exec (.flt d) s = .next t ∧ SameBytes s t ∧
      t = { s with rsp := some ⟨.ok, if d = s.ownId ∨ d = 0x00#8 then 1#16 else 0#16, false⟩ }) ∧
  (∀ (s : State) (d : Byte), s.halt = false → s.idValid = false →
    exec (.flt d) s = .next { s with rsp := some ⟨.noid, 0#16, false⟩ })

/-- R102, with R100 and R103: the same for FB[0]; NOID before SHORT; nothing is written. -/
def Obligations.FltFbFiltersTheFirstByte : Prop :=
  decode 0x4100000000000000#64 = .command .fltFb ∧
  (∀ s : State, s.halt = false → s.idValid = true → 1 ≤ s.len.toNat →
    ∃ t, exec .fltFb s = .next t ∧ SameBytes s t ∧
      t = { s with
        rsp := some ⟨.ok, if s.fbByte 0 = s.ownId ∨ s.fbByte 0 = 0x00#8 then 1#16 else 0#16, false⟩ }) ∧
  (∀ s : State, s.halt = false → s.idValid = true → s.len.toNat = 0 →
    exec .fltFb s = .next { s with rsp := some ⟨.short, 0#16, false⟩ }) ∧
  (∀ s : State, s.halt = false → s.idValid = false →
    exec .fltFb s = .next { s with rsp := some ⟨.noid, 0#16, false⟩ })

/-- R110, R112: an identifier in 0..247 is stored, made valid and answered; any other changes nothing. -/
def Obligations.SetidStoresALegalIdentifier : Prop :=
  (∀ imm16 : Word16,
    decode (0x50#8 ++ 0x00#8 ++ 0x00#8 ++ imm16 ++ 0x0000#16 ++ 0x00#8) = .command (.setid imm16.toInt)) ∧
  (∀ (s : State) (c : Nat), s.halt = false → c ≤ 247 →
    ∃ t, exec (.setid c) s = .next t ∧ SameBytes s t ∧
      t = { s with
        ownId := BitVec.ofNat 8 c, idValid := true, rsp := some ⟨.ok, BitVec.ofNat 16 c, false⟩ }) ∧
  (∀ (s : State) (c : Int), s.halt = false → c < 0 ∨ 247 < c →
    exec (.setid c) s = .next { s with rsp := some ⟨.invalidId, 0#16, false⟩ })

/-- R111: in terms of the raw field, exactly 0x0000..0x00F7 is accepted. -/
def Obligations.SetidAcceptsExactlyTheRawRange : Prop :=
  ∀ (s : State) (imm16 : Word16), s.halt = false →
    ∃ t r, exec (.setid imm16.toInt) s = .next t ∧ t.rsp = some r ∧
      (r.status = .ok ↔ imm16.extractLsb' 8 8 = 0x00#8 ∧ (imm16.extractLsb' 0 8).toNat ≤ 0xF7) ∧
      (r.status = .ok ↔ imm16.toNat ≤ 0x00F7) ∧
      (r.status ≠ .ok → r.status = .invalidId ∧ t.toEngine = s.toEngine)

/-- R114, R100: identifier 0 is accepted, and then the filter accepts exactly destination 0. -/
def Obligations.IdentifierZeroIsAccepted : Prop :=
  ∀ s : State, s.halt = false →
    ∃ t, exec (.setid 0) s = .next t ∧ t.ownId = 0x00#8 ∧ t.idValid = true ∧ t.rsp = some ⟨.ok, 0#16, false⟩ ∧
      ∀ d : Byte, ∃ u, exec (.flt d) t = .next u ∧
        u.rsp = some ⟨.ok, if d = 0x00#8 then 1#16 else 0#16, false⟩

/-- R113: the switch takes the operand, which is answered; the other seven bits of the field must be 0. -/
def Obligations.SetcfgSetsTheRecoverySwitch : Prop :=
  decode 0x5100000000000000#64 = .command (.setcfg false) ∧
  decode 0x5101000000000000#64 = .command (.setcfg true) ∧
  (∀ a : Byte, 2 ≤ a.toNat → decode (0x51#8 ++ a ++ 0x000000000000#48) = .illegal .reservedField) ∧
  ∀ (s : State) (en : Bool), s.halt = false →
    ∃ t, exec (.setcfg en) s = .next t ∧ SameBytes s t ∧
      t = { s with recoveryEn := en, rsp := some ⟨.ok, if en then 1#16 else 0#16, false⟩ }

/-- R102: with at least one byte in the buffer, FLT.FB is FLT of that byte. -/
def Obligations.FltFbIsFltOfTheFirstByte : Prop :=
  ∀ s : State, 1 ≤ s.len.toNat → exec .fltFb s = exec (.flt (s.fbByte 0)) s

/-- R100: the filter is two equalities; no destination above 247 passes it with a legal identifier. -/
def Obligations.FilterIsTwoEqualities : Prop :=
  (∀ own d : Byte, accepts own d = true ↔ d = own ∨ d = 0x00#8) ∧
  (∀ own : Byte, accepts own 0x00#8 = true) ∧
  (∀ own d : Byte, own.toNat ≤ 247 → 248 ≤ d.toNat → accepts own d = false)

/-! ### The checksum -/

/-- R64: after every byte sequence the two accumulators are the two bytes of the bitwise register, and one
byte keeps it so from every register value. -/
def Obligations.TableFormAgreesWithBitwiseForm : Prop :=
  (∀ (r : Word16) (b : Byte),
    crcStep (r.extractLsb' 0 8) (r.extractLsb' 8 8) b =
      ((crcBitwiseByte r b).extractLsb' 0 8, (crcBitwiseByte r b).extractLsb' 8 8)) ∧
  ∀ bytes : List Byte,
    crcAccumulate (0xFF#8, 0xFF#8) bytes =
      ((crcRegister bytes).extractLsb' 0 8, (crcRegister bytes).extractLsb' 8 8) ∧
    checksum bytes = (crcRegister bytes).extractLsb' 0 8 ++ (crcRegister bytes).extractLsb' 8 8

/-- R68: the empty sequence, the residue, its instance, the one true pair of trailing bytes, and injectivity
in the byte. -/
def Obligations.ChecksumResidueIsZero : Prop :=
  checksum [] = 0xFFFF#16 ∧
  (∀ m : List Byte,
    checksum (m ++ [(checksum m).extractLsb' 8 8, (checksum m).extractLsb' 0 8]) = 0x0000#16) ∧
  checksum [0xFF#8, 0xFF#8] = 0x0000#16 ∧
  (∀ (m : List Byte) (x y : Byte),
    x ++ y = checksum m ↔ x = (checksum m).extractLsb' 8 8 ∧ y = (checksum m).extractLsb' 0 8) ∧
  (∀ hi lo b b' : Byte, crcStep hi lo b = crcStep hi lo b' → b = b')

/-- R61: the generated tables are the printed ones, with the facts R61 states of them. -/
def Obligations.GeneratedTablesAreThePrintedOnes : Prop :=
  (List.range 256).map (fun n => (tableHi (BitVec.ofNat 8 n)).toNat) = printedTableHi ∧
  (List.range 256).map (fun n => (tableLo (BitVec.ofNat 8 n)).toNat) = printedTableLo ∧
  printedTableHi.sum = 24704 ∧ printedTableLo.sum = 32640 ∧ printedTableLo.Nodup ∧
  (∀ n ∈ printedTableHi, n ∈ [0x00, 0x01, 0x40, 0x41, 0x80, 0x81, 0xC0, 0xC1]) ∧
  (∀ n ∈ [0x00, 0x01, 0x40, 0x41, 0x80, 0x81, 0xC0, 0xC1], n ∈ printedTableHi) ∧
  crcT 1#8 = 0xC0C1#16 ∧ crcT 2#8 = 0xC181#16 ∧ crcT 0x80#8 = 0xA001#16 ∧ crcT 0xFF#8 = 0x4040#16

/-! ### Sequences of commands -/

/-- R96, R55: LOAD puts at most 256 bytes in the buffer in the order given, as the current frame. -/
def Obligations.LoadMakesTheBytesTheFrame : Prop :=
  ∀ (s : State) (bytes : List Byte), s.halt = false → bytes.length ≤ 256 →
    ∃ t, execAll (Pseudo.load bytes).expand s = .next t ∧
      t.len.toNat = bytes.length ∧ t.frame = bytes ∧ SameBytesOutside s t 0 bytes.length ∧
      t = { s with fb := t.fb, len := t.len, rsp := some ⟨.ok, BitVec.ofNat 16 bytes.length, false⟩ }

/-- R67, R55: CRC.INIT and one CRC.BYTE per byte leave and answer the checksum of any byte sequence. -/
def Obligations.StreamedChecksumIsTheChecksum : Prop :=
  ∀ (s : State) (bytes : List Byte), s.halt = false →
    ∃ t, execAll (Pseudo.crcStream bytes).expand s = .next t ∧ SameBytes s t ∧
      t = { s with
        accHi := (checksum bytes).extractLsb' 8 8, accLo := (checksum bytes).extractLsb' 0 8,
        rsp := some ⟨.ok, checksum bytes, false⟩ }

/-- R97(a), (b): CHK of a loaded frame answers OK with its length when its last two bytes are the checksum of
the rest, and CRC_MISMATCH with both values when they are anything else. -/
def Obligations.ChkAcceptsOnlyTheTrueChecksum : Prop :=
  ∀ (s : State) (m : List Byte) (x y : Byte), s.halt = false → m.length ≤ 254 →
    ∃ t, execAll ((Pseudo.load (m ++ [x, y])).expand ++ [.chk]) s = .next t ∧
      (x ++ y = checksum m → t.rsp = some ⟨.ok, BitVec.ofNat 16 (m.length + 2), false⟩) ∧
      (x ++ y ≠ checksum m →
        t.rsp = some ⟨.crcMismatch, 0#16, s.recoveryEn⟩ ∧ t.crcRx = x ++ y ∧ t.crcCalc = checksum m)

/-- R81: a basis, any payload that fits, and APPCRC make a frame that CHK answers OK with its length. -/
def Obligations.BuiltFramePassesItsCheck : Prop :=
  (∀ (s : State) (d fc : Byte) (addr cnt : Word16) (payload : List Byte),
    s.halt = false → d.toNat ≤ 247 → payload.length ≤ 248 →
    ∃ t u, execAll (.bldReq d fc addr cnt :: (payload.map .push ++ [.appcrc])) s = .next t ∧
      t.len.toNat = 8 + payload.length ∧ t.rsp = some ⟨.ok, BitVec.ofNat 16 (8 + payload.length), false⟩ ∧
      t.prefixBytes (6 + payload.length) =
        [d, fc, addr.extractLsb' 8 8, addr.extractLsb' 0 8, cnt.extractLsb' 8 8, cnt.extractLsb' 0 8] ++ payload ∧
      exec .chk t = .next u ∧ u.rsp = some ⟨.ok, BitVec.ofNat 16 (8 + payload.length), false⟩) ∧
  (∀ (s : State) (d fc : Byte) (payload : List Byte),
    s.halt = false → d.toNat ≤ 247 → payload.length ≤ 252 →
    ∃ t u, execAll (Pseudo.frameRsp d fc payload).expand s = .next t ∧
      t.len.toNat = 4 + payload.length ∧ t.rsp = some ⟨.ok, BitVec.ofNat 16 (4 + payload.length), false⟩ ∧
      t.prefixBytes (2 + payload.length) = [d, fc] ++ payload ∧
      exec .chk t = .next u ∧ u.rsp = some ⟨.ok, BitVec.ofNat 16 (4 + payload.length), false⟩)

/-- R78, R145: a second APPCRC appends two zero bytes, and CHK does not notice. -/
def Obligations.SecondAppcrcAppendsZeros : Prop :=
  ∀ s : State, s.halt = false → s.len.toNat ≤ 252 →
    ∃ t u, execAll [.appcrc, .appcrc] s = .next t ∧ t.len.toNat = s.len.toNat + 4 ∧
      t.fbByte (s.len.toNat + 2) = 0x00#8 ∧ t.fbByte (s.len.toNat + 3) = 0x00#8 ∧
      exec .chk t = .next u ∧ u.rsp = some ⟨.ok, BitVec.ofNat 16 (s.len.toNat + 4), false⟩

/-- R151: CHK and FLT.FB give the same pair of answers in either order. -/
def Obligations.CheckAndFilterAreIndependent : Prop :=
  ∀ s : State, s.lenInRange →
    ∃ t t' u u', exec .chk s = .next t ∧ exec .fltFb t = .next t' ∧
      exec .fltFb s = .next u ∧ exec .chk u = .next u' ∧ t'.rsp = u.rsp ∧ u'.rsp = t.rsp

/-! ### The read ports -/

/-- R20: the status-register read map, bit by bit. -/
def Obligations.StatusRegistersReadAsMapped : Prop :=
  ∀ s : State,
    (s.csrRead 0#3).extractLsb' 0 8 = s.ownId ∧ (s.csrRead 0#3).getLsbD 8 = s.idValid ∧
    (s.csrRead 0#3).extractLsb' 9 7 = 0#7 ∧
    (s.csrRead 1#3).getLsbD 0 = s.recoveryEn ∧ (s.csrRead 1#3).extractLsb' 1 15 = 0#15 ∧
    (s.csrRead 2#3).getLsbD 0 = s.halt ∧ (s.csrRead 2#3).extractLsb' 1 15 = 0#15 ∧
    (s.csrRead 3#3).extractLsb' 0 9 = s.len ∧ (s.csrRead 3#3).extractLsb' 9 7 = 0#7 ∧
    (s.csrRead 4#3).extractLsb' 8 8 = s.accHi ∧ (s.csrRead 4#3).extractLsb' 0 8 = s.accLo ∧
    s.csrRead 5#3 = s.crcRx ∧ s.csrRead 6#3 = s.crcCalc ∧ s.csrRead 7#3 = 0x0000#16
end

