-- ==== Sys2Proof/Laws/Memory.lean ====
section
/-! SUPPORT. The frame buffer as a canonical list: what a read gives after a write, that every write keeps
the canonical form, and that two canonical buffers with equal reads are equal lists. -/

namespace Sys2Proof.Machine

/-- The canonical form, unfolded: strictly rising addresses, each below 256. -/
theorem Memory.wf_iff (m : Memory) :
    Memory.wf m = true ↔ m.Pairwise (fun x y => x.1 < y.1) ∧ ∀ c ∈ m, c.1 < 256 := by
  rw [Memory.wf, Bool.and_eq_true, decide_eq_true_eq, List.all_eq_true]
  exact and_congr_right fun _ => forall₂_congr fun _ _ => decide_eq_true_iff

@[simp] theorem Memory.wf_nil : Memory.wf [] = true := rfl

@[simp] theorem Memory.read_nil (a : Nat) : Memory.read [] a = none := rfl

/-- A cell with a smaller address goes in front of a canonical tail, and only such a cell. -/
theorem Memory.wf_cons (c : Host.Cell) (m : Memory) :
    Memory.wf (c :: m) = true ↔ (∀ d ∈ m, c.1 < d.1) ∧ c.1 < 256 ∧ Memory.wf m = true := by
  simp only [Memory.wf_iff, List.pairwise_cons, List.forall_mem_cons]
  tauto

/-- Read after write: the written byte at its address, every other address as before. -/
theorem Memory.read_write (m : Memory) (a c : Nat) (b : Byte) :
    (m.write a b).read c = if c = a then some b else m.read c := by
  induction m with
  | nil => simp only [Memory.write, Memory.read]; split <;> simp_all [eq_comm]
  | cons x rest ih =>
    obtain ⟨k, v⟩ := x
    simp only [Memory.write]
    split
    · simp only [Memory.read, eq_comm]
    · split
      · simp only [Memory.read]; split <;> simp_all [eq_comm]
      · simp only [Memory.read, ih]; split <;> split <;> simp_all

@[simp] theorem Memory.read_write_self (m : Memory) (a : Nat) (b : Byte) :
    (m.write a b).read a = some b := by simp [Memory.read_write]

theorem Memory.read_write_other (m : Memory) {a c : Nat} (b : Byte) (h : c ≠ a) :
    (m.write a b).read c = m.read c := by simp [Memory.read_write, h]

/-- The addresses listed after a write are the old ones and the written one. -/
theorem Memory.mem_write {m : Memory} {a : Nat} {b : Byte} {d : Host.Cell} (h : d ∈ m.write a b) :
    d = (a, b) ∨ d ∈ m := by
  induction m with
  | nil => simpa [Memory.write] using h
  | cons x rest ih =>
    obtain ⟨k, v⟩ := x
    simp only [Memory.write] at h
    split at h
    · simpa using h
    · split at h
      · rcases List.mem_cons.mp h with h | h <;> simp [h]
      · rcases List.mem_cons.mp h with h | h
        · simp [h]
        · rcases ih h with h | h <;> simp [h]

/-- A write to an address of the buffer keeps the canonical form. -/
theorem Memory.write_wf {m : Memory} {a : Nat} (b : Byte) (ha : a < 256) (h : Memory.wf m = true) :
    Memory.wf (m.write a b) = true := by
  induction m with
  | nil => simp [Memory.write, Memory.wf_cons, ha]
  | cons x rest ih =>
    obtain ⟨k, v⟩ := x
    obtain ⟨hk, hk', hr⟩ := (Memory.wf_cons _ _).mp h
    simp only [Memory.write]
    split
    · rename_i hak
      refine (Memory.wf_cons _ _).mpr ⟨fun d hd => ?_, ha, h⟩
      rcases List.mem_cons.mp hd with hd | hd
      · simpa [hd] using hak
      · exact lt_trans hak (hk d hd)
    · split
      · rename_i hak
        exact (Memory.wf_cons _ _).mpr ⟨fun d hd => by simpa [hak] using hk d hd, ha, hr⟩
      · refine (Memory.wf_cons _ _).mpr ⟨fun d hd => ?_, hk', ih hr⟩
        rcases Memory.mem_write hd with hd | hd
        · simp only [hd]; omega
        · exact hk d hd

/-- Several writes keep the canonical form when the last address is one of the buffer. -/
theorem Memory.writeBytes_wf {m : Memory} {a : Nat} {bs : List Byte} (ha : a + bs.length ≤ 256)
    (h : Memory.wf m = true) : Memory.wf (m.writeBytes a bs) = true := by
  induction bs generalizing m a with
  | nil => simpa [Memory.writeBytes] using h
  | cons b bs ih =>
    simp only [List.length_cons] at ha
    exact ih (by omega) (Memory.write_wf b (by omega) h)

/-- Reading after several writes: the written byte inside the written range, as before outside it. -/
theorem Memory.read_writeBytes (m : Memory) (a c : Nat) (bs : List Byte) :
    (m.writeBytes a bs).read c =
      if a ≤ c ∧ c < a + bs.length then bs[c - a]? else m.read c := by
  induction bs generalizing m a with
  | nil => simp only [Memory.writeBytes, List.length_nil]; split <;> [omega; rfl]
  | cons b bs ih =>
    simp only [Memory.writeBytes, ih, Memory.read_write, List.length_cons]
    rcases lt_trichotomy c a with h | h | h
    · rw [if_neg (by omega), if_neg (by omega), if_neg (by omega)]
    · subst h; rw [if_neg (by omega), if_pos rfl, if_pos (by omega)]; simp
    · obtain ⟨n, rfl⟩ : ∃ n, c = a + 1 + n := ⟨c - (a + 1), by omega⟩
      have h1 : a + 1 + n - (a + 1) = n := by omega
      have h2 : a + 1 + n - a = n + 1 := by omega
      rw [h1, h2, List.getElem?_cons_succ, if_neg (by omega : ¬ a + 1 + n = a)]
      exact if_congr (by omega) rfl rfl

/-- No address below the first one of a canonical list is listed. -/
theorem Memory.read_eq_none_of_lt {m : Memory} {a : Nat} (h : ∀ d ∈ m, a < d.1) : m.read a = none := by
  induction m with
  | nil => rfl
  | cons x rest ih =>
    obtain ⟨k, v⟩ := x
    have hk : a < k := h (k, v) (by simp)
    simp only [Memory.read, if_neg (by omega : ¬ k = a)]
    exact ih fun d hd => h d (by simp [hd])

/-- Equal reads, equal lists: the canonical form of a buffer is unique. -/
theorem Memory.ext_of_wf {m n : Memory} (hm : Memory.wf m = true) (hn : Memory.wf n = true)
    (h : ∀ a, m.read a = n.read a) : m = n := by
  induction m generalizing n with
  | nil =>
    cases n with
    | nil => rfl
    | cons y n => have := h y.1; simp [Memory.read] at this
  | cons x m ih =>
    obtain ⟨k, v⟩ := x
    obtain ⟨hk, -, hm'⟩ := (Memory.wf_cons _ _).mp hm
    cases n with
    | nil => have := h k; simp [Memory.read] at this
    | cons y n =>
      obtain ⟨l, w⟩ := y
      obtain ⟨hl, -, hn'⟩ := (Memory.wf_cons _ _).mp hn
      have hkl : k = l := by
        rcases lt_trichotomy k l with hlt | heq | hgt
        · have := h k
          simp only [Memory.read, if_true, if_neg (by omega : ¬ l = k)] at this
          rw [Memory.read_eq_none_of_lt fun d hd => lt_trans hlt (hl d hd)] at this
          simp at this
        · exact heq
        · have := h l
          simp only [Memory.read, if_true, if_neg (by omega : ¬ k = l)] at this
          rw [Memory.read_eq_none_of_lt fun d hd => lt_trans hgt (hk d hd)] at this
          simp at this
      subst hkl
      have hv := h k
      simp only [Memory.read, if_true, Option.some.injEq] at hv
      subst hv
      congr 1
      refine ih hm' hn' fun a => ?_
      by_cases ha : k = a
      · subst ha
        rw [Memory.read_eq_none_of_lt hk, Memory.read_eq_none_of_lt hl]
      · simpa [Memory.read, ha] using h a

end Sys2Proof.Machine
end

