-- ==== Sys2Proof/Laws/State.lean ====
section
/-! SUPPORT. One lemma per field and update of State, all true by rfl: a proof reads a field of an updated
state without unfolding the update. -/

namespace Sys2Proof.Machine

section SetHalt

variable (s : State)

@[simp] theorem State.setHalt_fb : (s.setHalt).fb = s.fb := rfl
@[simp] theorem State.setHalt_len : (s.setHalt).len = s.len := rfl
@[simp] theorem State.setHalt_accHi : (s.setHalt).accHi = s.accHi := rfl
@[simp] theorem State.setHalt_accLo : (s.setHalt).accLo = s.accLo := rfl
@[simp] theorem State.setHalt_ownId : (s.setHalt).ownId = s.ownId := rfl
@[simp] theorem State.setHalt_idValid : (s.setHalt).idValid = s.idValid := rfl
@[simp] theorem State.setHalt_recoveryEn : (s.setHalt).recoveryEn = s.recoveryEn := rfl
@[simp] theorem State.setHalt_crcRx : (s.setHalt).crcRx = s.crcRx := rfl
@[simp] theorem State.setHalt_crcCalc : (s.setHalt).crcCalc = s.crcCalc := rfl
@[simp] theorem State.setHalt_halt : (s.setHalt).halt = true := rfl
@[simp] theorem State.setHalt_inputs : (s.setHalt).inputs = s.inputs := rfl
@[simp] theorem State.setHalt_rsp : (s.setHalt).rsp = s.rsp := rfl
@[simp] theorem State.setHalt_resets : (s.setHalt).resets = s.resets := rfl
@[simp] theorem State.setHalt_fbByte (a : Nat) : (s.setHalt).fbByte a = s.fbByte a := rfl

end SetHalt

section SetOwnId

variable (s : State) (v : Byte)

@[simp] theorem State.setOwnId_fb : (s.setOwnId v).fb = s.fb := rfl
@[simp] theorem State.setOwnId_len : (s.setOwnId v).len = s.len := rfl
@[simp] theorem State.setOwnId_accHi : (s.setOwnId v).accHi = s.accHi := rfl
@[simp] theorem State.setOwnId_accLo : (s.setOwnId v).accLo = s.accLo := rfl
@[simp] theorem State.setOwnId_ownId : (s.setOwnId v).ownId = v := rfl
@[simp] theorem State.setOwnId_idValid : (s.setOwnId v).idValid = true := rfl
@[simp] theorem State.setOwnId_recoveryEn : (s.setOwnId v).recoveryEn = s.recoveryEn := rfl
@[simp] theorem State.setOwnId_crcRx : (s.setOwnId v).crcRx = s.crcRx := rfl
@[simp] theorem State.setOwnId_crcCalc : (s.setOwnId v).crcCalc = s.crcCalc := rfl
@[simp] theorem State.setOwnId_halt : (s.setOwnId v).halt = s.halt := rfl
@[simp] theorem State.setOwnId_inputs : (s.setOwnId v).inputs = s.inputs := rfl
@[simp] theorem State.setOwnId_rsp : (s.setOwnId v).rsp = s.rsp := rfl
@[simp] theorem State.setOwnId_resets : (s.setOwnId v).resets = s.resets := rfl
@[simp] theorem State.setOwnId_fbByte (a : Nat) : (s.setOwnId v).fbByte a = s.fbByte a := rfl

end SetOwnId

section SetRecoveryEn

variable (s : State) (v : Bool)

@[simp] theorem State.setRecoveryEn_fb : (s.setRecoveryEn v).fb = s.fb := rfl
@[simp] theorem State.setRecoveryEn_len : (s.setRecoveryEn v).len = s.len := rfl
@[simp] theorem State.setRecoveryEn_accHi : (s.setRecoveryEn v).accHi = s.accHi := rfl
@[simp] theorem State.setRecoveryEn_accLo : (s.setRecoveryEn v).accLo = s.accLo := rfl
@[simp] theorem State.setRecoveryEn_ownId : (s.setRecoveryEn v).ownId = s.ownId := rfl
@[simp] theorem State.setRecoveryEn_idValid : (s.setRecoveryEn v).idValid = s.idValid := rfl
@[simp] theorem State.setRecoveryEn_recoveryEn : (s.setRecoveryEn v).recoveryEn = v := rfl
@[simp] theorem State.setRecoveryEn_crcRx : (s.setRecoveryEn v).crcRx = s.crcRx := rfl
@[simp] theorem State.setRecoveryEn_crcCalc : (s.setRecoveryEn v).crcCalc = s.crcCalc := rfl
@[simp] theorem State.setRecoveryEn_halt : (s.setRecoveryEn v).halt = s.halt := rfl
@[simp] theorem State.setRecoveryEn_inputs : (s.setRecoveryEn v).inputs = s.inputs := rfl
@[simp] theorem State.setRecoveryEn_rsp : (s.setRecoveryEn v).rsp = s.rsp := rfl
@[simp] theorem State.setRecoveryEn_resets : (s.setRecoveryEn v).resets = s.resets := rfl
@[simp] theorem State.setRecoveryEn_fbByte (a : Nat) : (s.setRecoveryEn v).fbByte a = s.fbByte a := rfl

end SetRecoveryEn

section SetLen

variable (s : State) (v : LenWord)

@[simp] theorem State.setLen_fb : (s.setLen v).fb = s.fb := rfl
@[simp] theorem State.setLen_len : (s.setLen v).len = v := rfl
@[simp] theorem State.setLen_accHi : (s.setLen v).accHi = s.accHi := rfl
@[simp] theorem State.setLen_accLo : (s.setLen v).accLo = s.accLo := rfl
@[simp] theorem State.setLen_ownId : (s.setLen v).ownId = s.ownId := rfl
@[simp] theorem State.setLen_idValid : (s.setLen v).idValid = s.idValid := rfl
@[simp] theorem State.setLen_recoveryEn : (s.setLen v).recoveryEn = s.recoveryEn := rfl
@[simp] theorem State.setLen_crcRx : (s.setLen v).crcRx = s.crcRx := rfl
@[simp] theorem State.setLen_crcCalc : (s.setLen v).crcCalc = s.crcCalc := rfl
@[simp] theorem State.setLen_halt : (s.setLen v).halt = s.halt := rfl
@[simp] theorem State.setLen_inputs : (s.setLen v).inputs = s.inputs := rfl
@[simp] theorem State.setLen_rsp : (s.setLen v).rsp = s.rsp := rfl
@[simp] theorem State.setLen_resets : (s.setLen v).resets = s.resets := rfl
@[simp] theorem State.setLen_fbByte (a : Nat) : (s.setLen v).fbByte a = s.fbByte a := rfl

end SetLen

section SetAcc

variable (s : State) (v : Word16)

@[simp] theorem State.setAcc_fb : (s.setAcc v).fb = s.fb := rfl
@[simp] theorem State.setAcc_len : (s.setAcc v).len = s.len := rfl
@[simp] theorem State.setAcc_accHi : (s.setAcc v).accHi = hiByte v := rfl
@[simp] theorem State.setAcc_accLo : (s.setAcc v).accLo = loByte v := rfl
@[simp] theorem State.setAcc_ownId : (s.setAcc v).ownId = s.ownId := rfl
@[simp] theorem State.setAcc_idValid : (s.setAcc v).idValid = s.idValid := rfl
@[simp] theorem State.setAcc_recoveryEn : (s.setAcc v).recoveryEn = s.recoveryEn := rfl
@[simp] theorem State.setAcc_crcRx : (s.setAcc v).crcRx = s.crcRx := rfl
@[simp] theorem State.setAcc_crcCalc : (s.setAcc v).crcCalc = s.crcCalc := rfl
@[simp] theorem State.setAcc_halt : (s.setAcc v).halt = s.halt := rfl
@[simp] theorem State.setAcc_inputs : (s.setAcc v).inputs = s.inputs := rfl
@[simp] theorem State.setAcc_rsp : (s.setAcc v).rsp = s.rsp := rfl
@[simp] theorem State.setAcc_resets : (s.setAcc v).resets = s.resets := rfl
@[simp] theorem State.setAcc_fbByte (a : Nat) : (s.setAcc v).fbByte a = s.fbByte a := rfl

end SetAcc

section SetDiagnostics

variable (s : State) (v w : Word16)

@[simp] theorem State.setDiagnostics_fb : (s.setDiagnostics v w).fb = s.fb := rfl
@[simp] theorem State.setDiagnostics_len : (s.setDiagnostics v w).len = s.len := rfl
@[simp] theorem State.setDiagnostics_accHi : (s.setDiagnostics v w).accHi = s.accHi := rfl
@[simp] theorem State.setDiagnostics_accLo : (s.setDiagnostics v w).accLo = s.accLo := rfl
@[simp] theorem State.setDiagnostics_ownId : (s.setDiagnostics v w).ownId = s.ownId := rfl
@[simp] theorem State.setDiagnostics_idValid : (s.setDiagnostics v w).idValid = s.idValid := rfl
@[simp] theorem State.setDiagnostics_recoveryEn : (s.setDiagnostics v w).recoveryEn = s.recoveryEn := rfl
@[simp] theorem State.setDiagnostics_crcRx : (s.setDiagnostics v w).crcRx = v := rfl
@[simp] theorem State.setDiagnostics_crcCalc : (s.setDiagnostics v w).crcCalc = w := rfl
@[simp] theorem State.setDiagnostics_halt : (s.setDiagnostics v w).halt = s.halt := rfl
@[simp] theorem State.setDiagnostics_inputs : (s.setDiagnostics v w).inputs = s.inputs := rfl
@[simp] theorem State.setDiagnostics_rsp : (s.setDiagnostics v w).rsp = s.rsp := rfl
@[simp] theorem State.setDiagnostics_resets : (s.setDiagnostics v w).resets = s.resets := rfl
@[simp] theorem State.setDiagnostics_fbByte (a : Nat) : (s.setDiagnostics v w).fbByte a = s.fbByte a := rfl

end SetDiagnostics

section Respond

variable (s : State) (st : Status) (v : Word16) (f : Bool)

@[simp] theorem State.respond_fb : (s.respond st v f).fb = s.fb := rfl
@[simp] theorem State.respond_len : (s.respond st v f).len = s.len := rfl
@[simp] theorem State.respond_accHi : (s.respond st v f).accHi = s.accHi := rfl
@[simp] theorem State.respond_accLo : (s.respond st v f).accLo = s.accLo := rfl
@[simp] theorem State.respond_ownId : (s.respond st v f).ownId = s.ownId := rfl
@[simp] theorem State.respond_idValid : (s.respond st v f).idValid = s.idValid := rfl
@[simp] theorem State.respond_recoveryEn : (s.respond st v f).recoveryEn = s.recoveryEn := rfl
@[simp] theorem State.respond_crcRx : (s.respond st v f).crcRx = s.crcRx := rfl
@[simp] theorem State.respond_crcCalc : (s.respond st v f).crcCalc = s.crcCalc := rfl
@[simp] theorem State.respond_halt : (s.respond st v f).halt = s.halt := rfl
@[simp] theorem State.respond_inputs : (s.respond st v f).inputs = s.inputs := rfl
@[simp] theorem State.respond_rsp : (s.respond st v f).rsp = some ⟨st, v, f⟩ := rfl
@[simp] theorem State.respond_resets : (s.respond st v f).resets = s.resets := rfl
@[simp] theorem State.respond_fbByte (a : Nat) : (s.respond st v f).fbByte a = s.fbByte a := rfl

end Respond

section Answer

variable (s : State) (v : Word16)

@[simp] theorem State.answer_fb : (s.answer v).fb = s.fb := rfl
@[simp] theorem State.answer_len : (s.answer v).len = s.len := rfl
@[simp] theorem State.answer_accHi : (s.answer v).accHi = s.accHi := rfl
@[simp] theorem State.answer_accLo : (s.answer v).accLo = s.accLo := rfl
@[simp] theorem State.answer_ownId : (s.answer v).ownId = s.ownId := rfl
@[simp] theorem State.answer_idValid : (s.answer v).idValid = s.idValid := rfl
@[simp] theorem State.answer_recoveryEn : (s.answer v).recoveryEn = s.recoveryEn := rfl
@[simp] theorem State.answer_crcRx : (s.answer v).crcRx = s.crcRx := rfl
@[simp] theorem State.answer_crcCalc : (s.answer v).crcCalc = s.crcCalc := rfl
@[simp] theorem State.answer_halt : (s.answer v).halt = s.halt := rfl
@[simp] theorem State.answer_inputs : (s.answer v).inputs = s.inputs := rfl
@[simp] theorem State.answer_rsp : (s.answer v).rsp = some ⟨.ok, v, false⟩ := rfl
@[simp] theorem State.answer_resets : (s.answer v).resets = s.resets := rfl
@[simp] theorem State.answer_fbByte (a : Nat) : (s.answer v).fbByte a = s.fbByte a := rfl

end Answer

section Raise

variable (s : State) (st : Status)

@[simp] theorem State.raise_fb : (s.raise st).fb = s.fb := rfl
@[simp] theorem State.raise_len : (s.raise st).len = s.len := rfl
@[simp] theorem State.raise_accHi : (s.raise st).accHi = s.accHi := rfl
@[simp] theorem State.raise_accLo : (s.raise st).accLo = s.accLo := rfl
@[simp] theorem State.raise_ownId : (s.raise st).ownId = s.ownId := rfl
@[simp] theorem State.raise_idValid : (s.raise st).idValid = s.idValid := rfl
@[simp] theorem State.raise_recoveryEn : (s.raise st).recoveryEn = s.recoveryEn := rfl
@[simp] theorem State.raise_crcRx : (s.raise st).crcRx = s.crcRx := rfl
@[simp] theorem State.raise_crcCalc : (s.raise st).crcCalc = s.crcCalc := rfl
@[simp] theorem State.raise_halt : (s.raise st).halt = s.halt := rfl
@[simp] theorem State.raise_inputs : (s.raise st).inputs = s.inputs := rfl
@[simp] theorem State.raise_rsp : (s.raise st).rsp = some ⟨st, 0#16, false⟩ := rfl
@[simp] theorem State.raise_resets : (s.raise st).resets = s.resets := rfl
@[simp] theorem State.raise_fbByte (a : Nat) : (s.raise st).fbByte a = s.fbByte a := rfl

end Raise

section RaiseAssert

variable (s : State)

@[simp] theorem State.raiseAssert_fb : (s.raiseAssert).fb = s.fb := rfl
@[simp] theorem State.raiseAssert_len : (s.raiseAssert).len = s.len := rfl
@[simp] theorem State.raiseAssert_accHi : (s.raiseAssert).accHi = s.accHi := rfl
@[simp] theorem State.raiseAssert_accLo : (s.raiseAssert).accLo = s.accLo := rfl
@[simp] theorem State.raiseAssert_ownId : (s.raiseAssert).ownId = s.ownId := rfl
@[simp] theorem State.raiseAssert_idValid : (s.raiseAssert).idValid = s.idValid := rfl
@[simp] theorem State.raiseAssert_recoveryEn : (s.raiseAssert).recoveryEn = s.recoveryEn := rfl
@[simp] theorem State.raiseAssert_crcRx : (s.raiseAssert).crcRx = s.crcRx := rfl
@[simp] theorem State.raiseAssert_crcCalc : (s.raiseAssert).crcCalc = s.crcCalc := rfl
@[simp] theorem State.raiseAssert_halt : (s.raiseAssert).halt = true := rfl
@[simp] theorem State.raiseAssert_inputs : (s.raiseAssert).inputs = s.inputs := rfl
@[simp] theorem State.raiseAssert_rsp : (s.raiseAssert).rsp = some ⟨.assert, 0#16, false⟩ := rfl
@[simp] theorem State.raiseAssert_resets : (s.raiseAssert).resets = s.resets := rfl
@[simp] theorem State.raiseAssert_fbByte (a : Nat) : (s.raiseAssert).fbByte a = s.fbByte a := rfl

end RaiseAssert

section Idle

variable (s : State)

@[simp] theorem State.idle_fb : (s.idle).fb = s.fb := rfl
@[simp] theorem State.idle_len : (s.idle).len = s.len := rfl
@[simp] theorem State.idle_accHi : (s.idle).accHi = s.accHi := rfl
@[simp] theorem State.idle_accLo : (s.idle).accLo = s.accLo := rfl
@[simp] theorem State.idle_ownId : (s.idle).ownId = s.ownId := rfl
@[simp] theorem State.idle_idValid : (s.idle).idValid = s.idValid := rfl
@[simp] theorem State.idle_recoveryEn : (s.idle).recoveryEn = s.recoveryEn := rfl
@[simp] theorem State.idle_crcRx : (s.idle).crcRx = s.crcRx := rfl
@[simp] theorem State.idle_crcCalc : (s.idle).crcCalc = s.crcCalc := rfl
@[simp] theorem State.idle_halt : (s.idle).halt = s.halt := rfl
@[simp] theorem State.idle_inputs : (s.idle).inputs = s.inputs := rfl
@[simp] theorem State.idle_rsp : (s.idle).rsp = none := rfl
@[simp] theorem State.idle_resets : (s.idle).resets = s.resets := rfl
@[simp] theorem State.idle_fbByte (a : Nat) : (s.idle).fbByte a = s.fbByte a := rfl

end Idle

section Present

variable (s : State) (v : Word64)

@[simp] theorem State.present_fb : (s.present v).fb = s.fb := rfl
@[simp] theorem State.present_len : (s.present v).len = s.len := rfl
@[simp] theorem State.present_accHi : (s.present v).accHi = s.accHi := rfl
@[simp] theorem State.present_accLo : (s.present v).accLo = s.accLo := rfl
@[simp] theorem State.present_ownId : (s.present v).ownId = s.ownId := rfl
@[simp] theorem State.present_idValid : (s.present v).idValid = s.idValid := rfl
@[simp] theorem State.present_recoveryEn : (s.present v).recoveryEn = s.recoveryEn := rfl
@[simp] theorem State.present_crcRx : (s.present v).crcRx = s.crcRx := rfl
@[simp] theorem State.present_crcCalc : (s.present v).crcCalc = s.crcCalc := rfl
@[simp] theorem State.present_halt : (s.present v).halt = s.halt := rfl
@[simp] theorem State.present_inputs : (s.present v).inputs = .command v :: s.inputs := rfl
@[simp] theorem State.present_rsp : (s.present v).rsp = s.rsp := rfl
@[simp] theorem State.present_resets : (s.present v).resets = s.resets := rfl
@[simp] theorem State.present_fbByte (a : Nat) : (s.present v).fbByte a = s.fbByte a := rfl

end Present

section ApplyReset

variable (s : State)

@[simp] theorem State.applyReset_fb : (s.applyReset).fb = [] := rfl
@[simp] theorem State.applyReset_len : (s.applyReset).len = 0#9 := rfl
@[simp] theorem State.applyReset_accHi : (s.applyReset).accHi = 0xFF#8 := rfl
@[simp] theorem State.applyReset_accLo : (s.applyReset).accLo = 0xFF#8 := rfl
@[simp] theorem State.applyReset_ownId : (s.applyReset).ownId = 0x00#8 := rfl
@[simp] theorem State.applyReset_idValid : (s.applyReset).idValid = false := rfl
@[simp] theorem State.applyReset_recoveryEn : (s.applyReset).recoveryEn = false := rfl
@[simp] theorem State.applyReset_crcRx : (s.applyReset).crcRx = 0x0000#16 := rfl
@[simp] theorem State.applyReset_crcCalc : (s.applyReset).crcCalc = 0x0000#16 := rfl
@[simp] theorem State.applyReset_halt : (s.applyReset).halt = false := rfl
@[simp] theorem State.applyReset_inputs : (s.applyReset).inputs = s.inputs := rfl
@[simp] theorem State.applyReset_rsp : (s.applyReset).rsp = none := rfl
@[simp] theorem State.applyReset_resets : (s.applyReset).resets = s.resets + 1 := rfl

end ApplyReset

end Sys2Proof.Machine
end

