-- ==== Sys2Proof/Laws/Ops.lean ====
section
/-! SUPPORT. One lemma per shared operation that says everything it can do; proofs about commands cite these
and unfold no operation. -/

namespace Sys2Proof.Machine

@[simp] theorem attempt_ok {α : Type} (x : α) (k : α → Result) : attempt (.ok x) k = k x := rfl

@[simp] theorem attempt_error {α : Type} (f : Fault) (k : α → Result) :
    attempt (.error f) k = .fault f := rfl

/-- An attempt that answers: the access succeeded, and what follows answered. -/
theorem attempt_next {α : Type} {e : Except Fault α} {k : α → Result} {t : State}
    (h : attempt e k = .next t) : ∃ x, e = .ok x ∧ k x = .next t := by
  cases e with
  | ok x => exact ⟨x, rfl, h⟩
  | error f => cases h

/-- The prologue of a machine that is not halted does nothing. -/
@[simp] theorem State.unlessHalted_running {s : State} (r : Result) (h : s.halt = false) :
    s.unlessHalted r = r := by simp [State.unlessHalted, h]

/-- The prologue of a halted machine answers HALTED. -/
@[simp] theorem State.unlessHalted_halted {s : State} (r : Result) (h : s.halt = true) :
    s.unlessHalted r = .next (s.raise .halted) := by simp [State.unlessHalted, h]

/-- The prologue that answers: HALTED on a halted machine, else the command itself. -/
theorem State.unlessHalted_next {s t : State} {r : Result} (h : s.unlessHalted r = .next t) :
    (s.halt = true ∧ t = s.raise .halted) ∨ (s.halt = false ∧ r = .next t) := by
  cases hh : s.halt
  · exact .inr ⟨rfl, by simpa [hh] using h⟩
  · refine .inl ⟨rfl, ?_⟩
    rw [State.unlessHalted_halted r hh] at h
    cases h; rfl

/-- The NOID test that answers: NOID without an identifier, else the filter itself. -/
theorem State.unlessNoId_next {s t : State} {r : Result} (h : s.unlessNoId r = .next t) :
    (s.idValid = false ∧ t = s.raise .noid) ∨ (s.idValid = true ∧ r = .next t) := by
  cases hh : s.idValid <;> simp only [State.unlessNoId, hh, if_true] at h
  · refine .inl ⟨rfl, ?_⟩; cases h; rfl
  · exact .inr ⟨rfl, h⟩

/-- A byte of the buffer is read at every address below 256. -/
theorem State.loadByte_ok (s : State) {a : Nat} (h : a < 256) : s.loadByte a = .ok (s.fbByte a) := by
  simp [State.loadByte, h]

/-- A read that succeeds gives the byte of an address below 256. -/
theorem State.loadByte_eq_ok {s : State} {a : Nat} {b : Byte} (h : s.loadByte a = .ok b) :
    a < 256 ∧ b = s.fbByte a := by
  unfold State.loadByte at h
  split at h
  · rename_i ha; cases h; exact ⟨ha, rfl⟩
  · cases h

/-- A sweep of at most 256 bytes reads each of them once, in increasing order. -/
theorem State.sweep_ok (s : State) {n : Nat} (h : n ≤ 256) :
    s.sweep n = .ok ((List.range n).map s.fbByte) := by
  simp [State.sweep, h]

/-- A sweep that succeeds is of at most 256 bytes. -/
theorem State.sweep_eq_ok {s : State} {n : Nat} {bs : List Byte} (h : s.sweep n = .ok bs) :
    n ≤ 256 ∧ bs = (List.range n).map s.fbByte := by
  unfold State.sweep at h
  split at h
  · rename_i hn; cases h; exact ⟨hn, rfl⟩
  · cases h

/-- Bytes stored inside the buffer: only the buffer changes. -/
theorem State.storeBytes_ok (s : State) {a : Nat} {bs : List Byte} (h : a + bs.length ≤ 256) :
    s.storeBytes a bs = .ok { s with fb := s.fb.writeBytes a bs } := by
  simp [State.storeBytes, h]

/-- A store that succeeds is inside the buffer. -/
theorem State.storeBytes_eq_ok {s t : State} {a : Nat} {bs : List Byte} (h : s.storeBytes a bs = .ok t) :
    a + bs.length ≤ 256 ∧ t = { s with fb := s.fb.writeBytes a bs } := by
  unfold State.storeBytes at h
  split at h
  · rename_i hn; cases h; exact ⟨hn, rfl⟩
  · cases h

/-- A frame is started: its bytes at offset 0 on, LEN their number, nothing else changed. -/
theorem State.startFrame_ok (s : State) {bs : List Byte} (h : bs.length ≤ 256) :
    s.startFrame bs =
      .ok { s with fb := s.fb.writeBytes 0 bs, len := BitVec.ofNat 9 bs.length } := by
  simp only [State.startFrame, s.storeBytes_ok (a := 0) (bs := bs) (by omega)]; rfl

/-- Bytes are appended: at LEN on, LEN advanced by their number, nothing else changed. -/
theorem State.appendBytes_ok (s : State) {bs : List Byte} (h : s.len.toNat + bs.length ≤ 256) :
    s.appendBytes bs =
      .ok { s with
        fb := s.fb.writeBytes s.len.toNat bs, len := s.len + BitVec.ofNat 9 bs.length } := by
  simp only [State.appendBytes, s.storeBytes_ok h]; rfl

/-- An append that succeeds is inside the buffer. -/
theorem State.appendBytes_eq_ok {s t : State} {bs : List Byte} (h : s.appendBytes bs = .ok t) :
    s.len.toNat + bs.length ≤ 256 ∧
      t = { s with
        fb := s.fb.writeBytes s.len.toNat bs, len := s.len + BitVec.ofNat 9 bs.length } := by
  by_cases hn : s.len.toNat + bs.length ≤ 256
  · rw [s.appendBytes_ok hn] at h; cases h; exact ⟨hn, rfl⟩
  · simp [State.appendBytes, State.storeBytes, hn] at h

/-- A started frame that succeeds is inside the buffer. -/
theorem State.startFrame_eq_ok {s t : State} {bs : List Byte} (h : s.startFrame bs = .ok t) :
    bs.length ≤ 256 ∧
      t = { s with fb := s.fb.writeBytes 0 bs, len := BitVec.ofNat 9 bs.length } := by
  by_cases hn : bs.length ≤ 256
  · rw [s.startFrame_ok hn] at h; cases h; exact ⟨hn, rfl⟩
  · simp [State.startFrame, State.storeBytes, hn] at h

/-- A byte of the buffer after bytes were written at `a` on: the written one inside, as before outside. -/
theorem State.fbByte_writeBytes (s : State) (a c : Nat) (bs : List Byte) :
    ({ s with fb := s.fb.writeBytes a bs } : State).fbByte c =
      if h : a ≤ c ∧ c < a + bs.length then bs[c - a]'(by omega) else s.fbByte c := by
  by_cases h : a ≤ c ∧ c < a + bs.length
  · simp only [State.fbByte, Memory.read_writeBytes, if_pos h, dif_pos h,
      List.getElem?_eq_getElem (show c - a < bs.length by omega)]
  · simp only [State.fbByte, Memory.read_writeBytes, if_neg h, dif_neg h]

/-- The advanced LEN is the sum, since it stays within nine bits. -/
theorem len_advance {n : LenWord} {k : Nat} (h : n.toNat + k ≤ 256) :
    (n + BitVec.ofNat 9 k).toNat = n.toNat + k := by
  simp only [BitVec.toNat_add, BitVec.toNat_ofNat]; omega

end Sys2Proof.Machine
end

