-- ==== Sys2Proof/Laws/Words.lean ====
section
/-! SUPPORT. Splitting and joining 16-bit values, and the checksum step by step. -/

namespace Sys2Proof.Machine

@[simp] theorem hiByte_joinBytes (a b : Byte) : hiByte (joinBytes a b) = a := by
  ext i hi
  simp only [hiByte, joinBytes, BitVec.getElem_extractLsb', BitVec.getLsbD_append]
  rw [if_neg (by omega), ← BitVec.getLsbD_eq_getElem]
  congr 1
  omega

@[simp] theorem loByte_joinBytes (a b : Byte) : loByte (joinBytes a b) = b := by
  ext i hi
  simp only [loByte, joinBytes, BitVec.getElem_extractLsb', BitVec.getLsbD_append]
  rw [if_pos (by omega), ← BitVec.getLsbD_eq_getElem]
  congr 1
  omega

@[simp] theorem joinBytes_hi_lo (v : Word16) : joinBytes (hiByte v) (loByte v) = v := by
  ext i hi
  simp only [hiByte, loByte, joinBytes, ← BitVec.getLsbD_eq_getElem, BitVec.getLsbD_append,
    BitVec.getLsbD_extractLsb']
  split <;>
  · rw [decide_eq_true (by omega), Bool.true_and]
    congr 1
    omega

/-- Two joined pairs are equal exactly when both bytes are. -/
theorem joinBytes_inj (a b c d : Byte) : joinBytes a b = joinBytes c d ↔ a = c ∧ b = d := by
  constructor
  · intro h
    exact ⟨by simpa using congrArg hiByte h, by simpa using congrArg loByte h⟩
  · rintro ⟨rfl, rfl⟩; rfl

@[simp] theorem crcAccumulate_nil (p : Byte × Byte) : crcAccumulate p [] = p := rfl

@[simp] theorem crcAccumulate_cons (p : Byte × Byte) (b : Byte) (bs : List Byte) :
    crcAccumulate p (b :: bs) = crcAccumulate (crcStep p.1 p.2 b) bs := rfl

/-- The accumulators of a sequence in two parts: the second part from where the first one ended. -/
theorem crcAccumulate_append (p : Byte × Byte) (xs ys : List Byte) :
    crcAccumulate p (xs ++ ys) = crcAccumulate (crcAccumulate p xs) ys := by
  simp [crcAccumulate, List.foldl_append]

/-- The checksum's two bytes are the accumulators from the seed. -/
theorem checksum_bytes (bs : List Byte) :
    (hiByte (checksum bs), loByte (checksum bs)) = crcAccumulate (0xFF#8, 0xFF#8) bs := by
  have h : (hiByte Config.crcSeed, loByte Config.crcSeed) = (0xFF#8, 0xFF#8) := by decide
  simp only [checksum, hiByte_joinBytes, loByte_joinBytes, h]

end Sys2Proof.Machine
end

