-- ==== Sys2Proof/Laws/Commands.lean ====
section
/-! SUPPORT. What each command can do, said once: if its meaning answers a next state, the state is one of
those listed. Every whole-machine property follows from these without unfolding a meaning. -/

namespace Sys2Proof.Machine

variable {s t : State}

/-- Every meaning begins with the HALTED test (R127, step 1). -/
theorem exec_halted (i : Instr) (h : s.halt = true) : exec i s = .next (s.raise .halted) := by
  cases i <;> exact State.unlessHalted_halted _ h

theorem execCrcBuf_next (h : execCrcBuf s = .next t) :
    (s.halt = true ∧ t = s.raise .halted) ∨
    (s.halt = false ∧ s.len.toNat ≤ 256 ∧
      t = (s.setAcc (checksum s.frame)).answer (checksum s.frame)) := by
  rcases State.unlessHalted_next h with h | ⟨hh, h⟩
  · exact .inl h
  · obtain ⟨bytes, hs, h⟩ := attempt_next h
    obtain ⟨hl, rfl⟩ := State.sweep_eq_ok hs
    cases h
    exact .inr ⟨hh, hl, rfl⟩

theorem execCrcInit_next (h : execCrcInit s = .next t) :
    (s.halt = true ∧ t = s.raise .halted) ∨
    (s.halt = false ∧ t = (s.setAcc 0xFFFF#16).answer 0xFFFF#16) := by
  rcases State.unlessHalted_next h with h | ⟨hh, h⟩
  · exact .inl h
  · cases h; exact .inr ⟨hh, rfl⟩

theorem execCrcByte_next {b : Byte} (h : execCrcByte b s = .next t) :
    (s.halt = true ∧ t = s.raise .halted) ∨
    (s.halt = false ∧ ∃ c, c = joinBytes (crcStep s.accHi s.accLo b).1 (crcStep s.accHi s.accLo b).2 ∧
      t = (s.setAcc c).answer c) := by
  rcases State.unlessHalted_next h with h | ⟨hh, h⟩
  · exact .inl h
  · cases h; exact .inr ⟨hh, _, rfl, rfl⟩

/-- A builder: ASSERT for a destination above 247, else the basis at offset 0 on. -/
theorem buildBasis_next {d : Byte} {basis : List Byte} (h : buildBasis d basis s = .next t) :
    (s.halt = true ∧ t = s.raise .halted) ∨
    (s.halt = false ∧ 247 < d.toNat ∧ t = s.raiseAssert) ∨
    (s.halt = false ∧ d.toNat ≤ 247 ∧ basis.length ≤ 256 ∧
      t = ({ s with fb := s.fb.writeBytes 0 basis, len := BitVec.ofNat 9 basis.length } : State).answer
        (lenValue (BitVec.ofNat 9 basis.length))) := by
  rcases State.unlessHalted_next h with h | ⟨hh, h⟩
  · exact .inl h
  · split at h
    · rename_i hv
      obtain ⟨u, hu, h⟩ := attempt_next h
      obtain ⟨hl, rfl⟩ := State.startFrame_eq_ok hu
      cases h
      exact .inr (.inr ⟨hh, by simpa [validId] using hv, hl, rfl⟩)
    · rename_i hv
      cases h
      exact .inr (.inl ⟨hh, by simpa [validId] using hv, rfl⟩)

theorem execBldReq_next {d fc : Byte} {addr cnt : Word16} (h : execBldReq d fc addr cnt s = .next t) :
    (s.halt = true ∧ t = s.raise .halted) ∨
    (s.halt = false ∧ 247 < d.toNat ∧ t = s.raiseAssert) ∨
    (s.halt = false ∧ d.toNat ≤ 247 ∧
      t = ({ s with fb := s.fb.writeBytes 0 (requestBasis d fc addr cnt), len := 6#9 } : State).answer 6#16) := by
  rcases buildBasis_next h with h | h | ⟨hh, hd, -, h⟩
  · exact .inl h
  · exact .inr (.inl h)
  · exact .inr (.inr ⟨hh, hd, h⟩)

theorem execBldRsp_next {d fc : Byte} (h : execBldRsp d fc s = .next t) :
    (s.halt = true ∧ t = s.raise .halted) ∨
    (s.halt = false ∧ 247 < d.toNat ∧ t = s.raiseAssert) ∨
    (s.halt = false ∧ d.toNat ≤ 247 ∧
      t = ({ s with fb := s.fb.writeBytes 0 (responseBasis d fc), len := 2#9 } : State).answer 2#16) := by
  rcases buildBasis_next h with h | h | ⟨hh, hd, -, h⟩
  · exact .inl h
  · exact .inr (.inl h)
  · exact .inr (.inr ⟨hh, hd, h⟩)

theorem execPush_next {b : Byte} (h : execPush b s = .next t) :
    (s.halt = true ∧ t = s.raise .halted) ∨
    (s.halt = false ∧ s.len.toNat = 256 ∧ t = s.raise .overflow) ∨
    (s.halt = false ∧ s.len.toNat < 256 ∧
      t = ({ s with fb := s.fb.write s.len.toNat b, len := s.len + 1#9 } : State).answer
        (lenValue (s.len + 1#9))) := by
  rcases State.unlessHalted_next h with h | ⟨hh, h⟩
  · exact .inl h
  · split at h
    · rename_i hl
      cases h
      exact .inr (.inl ⟨hh, hl, rfl⟩)
    · obtain ⟨u, hu, h⟩ := attempt_next h
      obtain ⟨hl, rfl⟩ := State.appendBytes_eq_ok hu
      cases h
      exact .inr (.inr ⟨hh, hl, rfl⟩)

theorem execAppcrc_next (h : execAppcrc s = .next t) :
    (s.halt = true ∧ t = s.raise .halted) ∨
    (s.halt = false ∧ 254 < s.len.toNat ∧ t = s.raise .overflow) ∨
    (s.halt = false ∧ s.len.toNat ≤ 254 ∧
      t = (({ s with
          fb := s.fb.writeBytes s.len.toNat (wireBytes (checksum s.frame)), len := s.len + 2#9 } : State).setAcc
        (checksum s.frame)).answer (lenValue (s.len + 2#9))) := by
  rcases State.unlessHalted_next h with h | ⟨hh, h⟩
  · exact .inl h
  · split at h
    · rename_i hl
      cases h
      exact .inr (.inl ⟨hh, hl, rfl⟩)
    · rename_i hl
      obtain ⟨bytes, hs, h⟩ := attempt_next h
      obtain ⟨-, rfl⟩ := State.sweep_eq_ok hs
      obtain ⟨u, hu, h⟩ := attempt_next h
      obtain ⟨-, rfl⟩ := State.appendBytes_eq_ok hu
      cases h
      exact .inr (.inr ⟨hh, by simpa using hl, rfl⟩)

theorem execClr_next (h : execClr s = .next t) :
    (s.halt = true ∧ t = s.raise .halted) ∨ (s.halt = false ∧ t = (s.setLen 0#9).answer 0#16) := by
  rcases State.unlessHalted_next h with h | ⟨hh, h⟩
  · exact .inl h
  · cases h; exact .inr ⟨hh, rfl⟩

theorem execChk_next (h : execChk s = .next t) :
    (s.halt = true ∧ t = s.raise .halted) ∨
    (s.halt = false ∧ s.len.toNat < 2 ∧ t = s.raise .short) ∨
    (s.halt = false ∧ 2 ≤ s.len.toNat ∧ s.len.toNat ≤ 256 ∧
      t = compareChecksums (joinBytes (s.fbByte (s.len.toNat - 2)) (s.fbByte (s.len.toNat - 1)))
        (checksum (s.prefixBytes (s.len.toNat - 2))) s) := by
  rcases State.unlessHalted_next h with h | ⟨hh, h⟩
  · exact .inl h
  · split at h
    · rename_i hl
      cases h
      exact .inr (.inl ⟨hh, hl, rfl⟩)
    · rename_i hl
      obtain ⟨hi, hhi, h⟩ := attempt_next h
      obtain ⟨-, rfl⟩ := State.loadByte_eq_ok hhi
      obtain ⟨lo, hlo, h⟩ := attempt_next h
      obtain ⟨hl', rfl⟩ := State.loadByte_eq_ok hlo
      obtain ⟨bytes, hs, h⟩ := attempt_next h
      obtain ⟨-, rfl⟩ := State.sweep_eq_ok hs
      cases h
      simp only [Config.crcSuffixLen] at hl
      exact .inr (.inr ⟨hh, by omega, by omega, rfl⟩)

/-- The comparison: a match answers LEN, a mismatch the flush request; the registers are written on both. -/
theorem compareChecksums_cases (rx recomputed : Word16) (s : State) :
    (rx = recomputed ∧ compareChecksums rx recomputed s =
      ((s.setDiagnostics rx recomputed).setAcc recomputed).answer (lenValue s.len)) ∨
    (rx ≠ recomputed ∧ compareChecksums rx recomputed s =
      ((s.setDiagnostics rx recomputed).setAcc recomputed).respond .crcMismatch 0#16 s.recoveryEn) := by
  by_cases h : rx = recomputed
  · exact .inl ⟨h, by simp only [compareChecksums, if_pos h]⟩
  · exact .inr ⟨h, by simp only [compareChecksums, if_neg h]; rfl⟩

theorem execFlt_next {d : Byte} (h : execFlt d s = .next t) :
    (s.halt = true ∧ t = s.raise .halted) ∨
    (s.halt = false ∧ s.idValid = false ∧ t = s.raise .noid) ∨
    (s.halt = false ∧ s.idValid = true ∧ t = s.answer (bitValue (accepts s.ownId d))) := by
  rcases State.unlessHalted_next h with h | ⟨hh, h⟩
  · exact .inl h
  · rcases State.unlessNoId_next h with ⟨hv, h⟩ | ⟨hv, h⟩
    · exact .inr (.inl ⟨hh, hv, h⟩)
    · cases h; exact .inr (.inr ⟨hh, hv, rfl⟩)

theorem execFltFb_next (h : execFltFb s = .next t) :
    (s.halt = true ∧ t = s.raise .halted) ∨
    (s.halt = false ∧ s.idValid = false ∧ t = s.raise .noid) ∨
    (s.halt = false ∧ s.idValid = true ∧ s.len.toNat = 0 ∧ t = s.raise .short) ∨
    (s.halt = false ∧ s.idValid = true ∧ 0 < s.len.toNat ∧
      t = s.answer (bitValue (accepts s.ownId (s.fbByte 0)))) := by
  rcases State.unlessHalted_next h with h | ⟨hh, h⟩
  · exact .inl h
  · rcases State.unlessNoId_next h with ⟨hv, h⟩ | ⟨hv, h⟩
    · exact .inr (.inl ⟨hh, hv, h⟩)
    · split at h
      · rename_i hl
        cases h
        exact .inr (.inr (.inl ⟨hh, hv, hl, rfl⟩))
      · rename_i hl
        obtain ⟨b, hb, h⟩ := attempt_next h
        obtain ⟨-, rfl⟩ := State.loadByte_eq_ok hb
        cases h
        exact .inr (.inr (.inr ⟨hh, hv, by omega, rfl⟩))

theorem execSetid_next {c : Int} (h : execSetid c s = .next t) :
    (s.halt = true ∧ t = s.raise .halted) ∨
    (s.halt = false ∧ ¬ (0 ≤ c ∧ c ≤ 247) ∧ t = s.raise .invalidId) ∨
    (s.halt = false ∧ (0 ≤ c ∧ c ≤ 247) ∧
      t = (s.setOwnId (candidateByte c)).answer (byteValue (candidateByte c))) := by
  have hc : validCandidate c = true ↔ 0 ≤ c ∧ c ≤ 247 := by
    simp only [validCandidate, Bool.and_eq_true, decide_eq_true_eq]; rfl
  rcases State.unlessHalted_next h with h | ⟨hh, h⟩
  · exact .inl h
  · split at h
    · rename_i hv; cases h; exact .inr (.inr ⟨hh, hc.mp hv, rfl⟩)
    · rename_i hv; cases h; exact .inr (.inl ⟨hh, fun h => hv (hc.mpr h), rfl⟩)

theorem execSetcfg_next {en : Bool} (h : execSetcfg en s = .next t) :
    (s.halt = true ∧ t = s.raise .halted) ∨
    (s.halt = false ∧ t = (s.setRecoveryEn en).answer (bitValue en)) := by
  rcases State.unlessHalted_next h with h | ⟨hh, h⟩
  · exact .inl h
  · cases h; exact .inr ⟨hh, rfl⟩

end Sys2Proof.Machine
end

