-- ==== Sys2Proof/Laws/Decode.lean ====
section
/-! SUPPORT. The six fields of a command word and the word are two views of the same 64 bits (R46). -/

namespace Sys2Proof

/-- No field is dropped or moved on the way to the word. -/
@[simp] theorem Fields.ofWord_toWord (f : Fields) : Fields.ofWord f.toWord = f := by
  obtain ⟨op, a, fc, addr, cnt, rsv⟩ := f
  simp only [Fields.ofWord, Fields.toWord, Fields.mk.injEq]
  refine ⟨?_, ?_, ?_, ?_, ?_, ?_⟩ <;>
  · ext i hi
    simp only [BitVec.getElem_extractLsb', BitVec.getLsbD_append]
    (repeat' split) <;> first
      | omega
      | (rw [← BitVec.getLsbD_eq_getElem]; congr 1; omega)

/-- The six fields hold every bit of the word. -/
@[simp] theorem Fields.toWord_ofWord (w : Word64) : (Fields.ofWord w).toWord = w := by
  simp only [Fields.ofWord, Fields.toWord]
  ext i hi
  simp only [← BitVec.getLsbD_eq_getElem, BitVec.getLsbD_append, BitVec.getLsbD_extractLsb']
  (repeat' split) <;>
  · rw [decide_eq_true (by omega), Bool.true_and]
    congr 1
    omega

/-- A word is decoded by its fields. -/
theorem decode_toWord (f : Fields) : decode f.toWord = decodeFields f := by
  rw [decode, Fields.ofWord_toWord]

/-- Decoding an encoded command reads the fields that spell it. -/
theorem decode_encode_fields (i : Instr) : decode (encode i) = decodeFields i.fields :=
  decode_toWord i.fields

end Sys2Proof
end

