-- ==== Sys2Proof/Laws/PerInstr.lean ====
section
/-! SUPPORT. Per command: its fields stand in the row of the opcode map (30_encoding.md R49) that has its
opcode, with the reserved fields of that row's format zero (R47). -/

namespace Sys2Proof.Laws.OpcodeRow

/-- The row of the opcode map that the command's opcode selects accepts the command's fields. -/
def Statement (i : Instr) : Prop :=
  ∃ row, opcodeMap.find? (fun r => r.op = i.fields.op) = some row ∧ row.format.reservedZero i.fields = true

theorem crcBuf : Statement .crcBuf := ⟨_, rfl, rfl⟩

theorem crcInit : Statement .crcInit := ⟨_, rfl, rfl⟩

theorem crcByte (b : Byte) : Statement (.crcByte b) := ⟨_, rfl, rfl⟩

theorem bldReq (d fc : Byte) (addr cnt : Word16) : Statement (.bldReq d fc addr cnt) := ⟨_, rfl, rfl⟩

theorem bldRsp (d fc : Byte) : Statement (.bldRsp d fc) := ⟨_, rfl, rfl⟩

theorem push (b : Byte) : Statement (.push b) := ⟨_, rfl, rfl⟩

theorem appcrc : Statement .appcrc := ⟨_, rfl, rfl⟩

theorem clr : Statement .clr := ⟨_, rfl, rfl⟩

theorem chk : Statement .chk := ⟨_, rfl, rfl⟩

theorem flt (d : Byte) : Statement (.flt d) := ⟨_, rfl, rfl⟩

theorem fltFb : Statement .fltFb := ⟨_, rfl, rfl⟩

theorem setid (c : Int) : Statement (.setid c) := ⟨_, rfl, rfl⟩

theorem setcfg (en : Bool) : Statement (.setcfg en) := by
  cases en <;> exact ⟨_, rfl, rfl⟩

end Sys2Proof.Laws.OpcodeRow
end

