-- ==== Sys2Proof/Laws/Step.lean ====
section
/-! SUPPORT. What one step does, said once: it idles, resets, answers an illegal word, or runs a command. -/

namespace Sys2Proof.Machine

variable {s t : State}

/-- Nothing presented: the step idles. -/
theorem step_idle (h : s.inputs = []) : step s = .next s.idle := by
  simp only [step, acceptNext, h]

/-- A reset presented: the step resets. -/
theorem step_reset {rest : List Input} (h : s.inputs = .reset :: rest) :
    step s = .next ({ s with inputs := rest } : State).applyReset := by
  simp only [step, acceptNext, h]

/-- A word presented: the step accepts it. -/
theorem step_word {w : Word64} {rest : List Input} (h : s.inputs = .command w :: rest) :
    step s = acceptWord w { s with inputs := rest } := by
  simp only [step, acceptNext, h]

/-- A word that is accepted and answered: a command that ran, or an illegal word. -/
theorem acceptWord_next {w : Word64} (h : acceptWord w s = .next t) :
    (∃ i, decode w = .command i ∧ exec i s = .next t) ∨
    (∃ why, decode w = .illegal why ∧
      (s.halt = true ∧ t = s.raise .halted ∨ s.halt = false ∧ t = s.raise .illegal)) := by
  unfold acceptWord at h
  split at h
  · exact .inl ⟨_, ‹_›, h⟩
  · refine .inr ⟨_, ‹_›, ?_⟩
    rcases State.unlessHalted_next h with h | ⟨hh, h⟩
    · exact .inl h
    · cases h; exact .inr ⟨hh, rfl⟩

/-- Every step that answers. -/
theorem step_next (h : step s = .next t) :
    (s.inputs = [] ∧ t = s.idle) ∨
    (∃ rest, s.inputs = .reset :: rest ∧ t = ({ s with inputs := rest } : State).applyReset) ∨
    (∃ w rest, s.inputs = .command w :: rest ∧ acceptWord w { s with inputs := rest } = .next t) := by
  match hi : s.inputs with
  | [] => rw [step_idle hi] at h; cases h; exact .inl ⟨rfl, rfl⟩
  | .reset :: rest => rw [step_reset hi] at h; cases h; exact .inr (.inl ⟨rest, rfl, rfl⟩)
  | .command w :: rest => rw [step_word hi] at h; exact .inr (.inr ⟨w, rest, rfl, h⟩)

end Sys2Proof.Machine
end

