-- ==== Sys2Proof/Tests/Slice0.lean ====
section
/-! SUPPORT. Tests with results taken from spec/ (30_encoding.md section 6, 95_test_vectors.md; the vector's
name stands before each), and for every statement with hypotheses a concrete case that meets them. -/

namespace Sys2Proof.Tests

open Sys2Proof Sys2Proof.Machine Sys2Proof.Claims

/-- A machine after reset whose current frame is the given bytes. -/
def holding (bytes : List Byte) : State :=
  { State.reset with fb := Memory.writeBytes [] 0 bytes, len := BitVec.ofNat 9 bytes.length }

/-- A machine after reset with LEN as given, its buffer not written. -/
def withLen (n : Nat) : State := { State.reset with len := BitVec.ofNat 9 n }

/-- A machine after reset with an identifier and a frame. -/
def identified (own : Byte) (bytes : List Byte) : State := { holding bytes with ownId := own, idValid := true }

/-- A halted machine. -/
def halted : State := { State.reset with halt := true }

/-- The outcome is a next state that passes the test. -/
def next (r : Result) (test : State → Bool) : Bool :=
  match r with
  | .next t => test t
  | .fault _ => false
  | .refused _ => false

/-- The outcome is a next state with this response. -/
def gives (r : Result) (status : Status) (value : Word16) (flush : Bool) : Bool :=
  next r fun t => t.rsp = some ⟨status, value, flush⟩

/-! ### WellFormed: the one check, and what it refuses -/

theorem test_setid_below_field_refused : (Instr.setid (-32769)).wellFormed = false := by decide

theorem test_setid_above_field_refused : (Instr.setid 32768).wellFormed = false := by decide

theorem test_setid_bounds_accepted :
    (Instr.setid (-32768)).wellFormed = true ∧ (Instr.setid 32767).wellFormed = true := by decide

/-! ### Decoding: every constructor by a word written out from the spec's encoding of it -/

theorem test_decode_crcBuf : decode 0x1000000000000000#64 = .command .crcBuf := by decide
theorem test_decode_crcInit : decode 0x1100000000000000#64 = .command .crcInit := by decide
theorem test_decode_crcByte : decode 0x12FF000000000000#64 = .command (.crcByte 0xFF) := by decide
theorem test_decode_bldReq : decode 0x2001060001000300#64 = .command (.bldReq 1 6 0x0001 0x0003) := by decide
theorem test_decode_bldRsp : decode 0x21F7100000000000#64 = .command (.bldRsp 247 0x10) := by decide
theorem test_decode_push : decode 0x2241000000000000#64 = .command (.push 0x41) := by decide
theorem test_decode_appcrc : decode 0x2300000000000000#64 = .command .appcrc := by decide
theorem test_decode_clr : decode 0x2400000000000000#64 = .command .clr := by decide
theorem test_decode_chk : decode 0x3000000000000000#64 = .command .chk := by decide
theorem test_decode_flt : decode 0x40F8000000000000#64 = .command (.flt 248) := by decide
theorem test_decode_fltFb : decode 0x4100000000000000#64 = .command .fltFb := by decide
theorem test_decode_setid : decode 0x500000FF08000000#64 = .command (.setid (-248)) := by decide
theorem test_decode_setcfg : decode 0x5101000000000000#64 = .command (.setcfg true) := by decide

/-- VF3, VF4, VF5, VF6. -/
theorem test_unassigned_opcodes :
    ([0x1300000000000000#64, 0x2500000000000000#64, 0x4200000000000000#64, 0x5200000000000000#64].map decode).all
      (· = .illegal .unassignedOpcode) = true := by decide

/-- VF7 to VF13. -/
theorem test_reserved_fields :
    ([0x3000000000000001#64, 0x2300000000000100#64, 0x5102000000000000#64, 0x5001000005000000#64,
      0x4100010000000000#64, 0x1201010000000000#64, 0x20FA000000000001#64].map decode).all
      (· = .illegal .reservedField) = true := by decide

/-- VF13 on the machine: ILLEGAL comes before ASSERT, and HALT stays 0. -/
theorem test_illegal_before_assert :
    next (acceptWord 0x20FA000000000001#64 State.reset) (fun t =>
      t.rsp = some ⟨.illegal, 0, false⟩ && !t.halt) = true := by decide

/-- VB22: a halted machine answers HALTED to a legal word, and to an illegal one. -/
theorem test_halted :
    gives (acceptWord 0x2400000000000000#64 halted) .halted 0 false = true ∧
    gives (acceptWord 0#64 halted) .halted 0 false = true := by decide

/-! ### One command each -/

/-- V10. -/
theorem test_checksum_123456789 :
    checksum [0x31, 0x32, 0x33, 0x34, 0x35, 0x36, 0x37, 0x38, 0x39] = 0x374B#16 := by decide +kernel

/-- VA2. -/
theorem test_crcBuf :
    next (exec .crcBuf (holding [0x02, 0x07])) (fun t =>
      t.rsp = some ⟨.ok, 0x4112, false⟩ && t.accHi = 0x41#8 && t.accLo = 0x12#8 && t.len = 2) = true := by
  decide +kernel

/-- VA1. -/
theorem test_crcBuf_empty : gives (exec .crcBuf State.reset) .ok 0xFFFF false = true := by decide

/-- VA3. -/
theorem test_crcInit :
    next (exec .crcInit { State.reset with accHi := 0x41, accLo := 0x12 }) (fun t =>
      t.rsp = some ⟨.ok, 0xFFFF, false⟩ && t.accHi = 0xFF#8 && t.accLo = 0xFF#8) = true := by decide

/-- VA4, VA5. -/
theorem test_crcByte :
    gives (exec (.crcByte 0x02) State.reset) .ok 0x3E81 false = true ∧
    gives (exec (.crcByte 0x07) { State.reset with accHi := 0x3E, accLo := 0x81 }) .ok 0x4112 false = true := by
  decide +kernel

/-- VB1. -/
theorem test_bldReq :
    next (exec (.bldReq 17 3 0x0013 0x0002) State.reset) (fun t =>
      t.rsp = some ⟨.ok, 6, false⟩ && t.frame = [0x11#8, 0x03, 0x00, 0x13, 0x00, 0x02]) = true := by decide

/-- VB17. -/
theorem test_bldReq_assert :
    next (exec (.bldReq 248 3 0 1) State.reset) (fun t =>
      t.rsp = some ⟨.assert, 0, false⟩ && t.halt && t.len = 0 && t.fb = []) = true := by decide

/-- VB6. -/
theorem test_bldRsp :
    next (exec (.bldRsp 247 0x10) State.reset) (fun t =>
      t.rsp = some ⟨.ok, 2, false⟩ && t.frame = [0xF7#8, 0x10]) = true := by decide

/-- VB19. -/
theorem test_bldRsp_assert : gives (exec (.bldRsp 255 3) State.reset) .assert 0 false = true := by decide

/-- VB13. -/
theorem test_push_last :
    next (exec (.push 0xAA) (withLen 255)) (fun t =>
      t.rsp = some ⟨.ok, 256, false⟩ && t.len = 256 && t.fb = [(255, 0xAA#8)]) = true := by decide

/-- VB9. -/
theorem test_push_full : gives (exec (.push 0x00) (withLen 256)) .overflow 0 false = true := by decide

/-- VB5, its second command. -/
theorem test_appcrc :
    next (exec .appcrc (holding [0x00, 0x83])) (fun t =>
      t.rsp = some ⟨.ok, 4, false⟩ && t.frame = [0x00#8, 0x83, 0x40, 0x11] && t.accHi = 0x40#8) = true := by
  decide +kernel

/-- VB12. -/
theorem test_appcrc_full : gives (exec .appcrc (withLen 255)) .overflow 0 false = true := by decide

/-- VB15. -/
theorem test_clr :
    next (exec .clr (holding [0x11, 0x03])) (fun t =>
      t.rsp = some ⟨.ok, 0, false⟩ && t.len = 0 && t.fb = [(0, 0x11#8), (1, 0x03)]) = true := by decide

/-- VC1. -/
theorem test_chk_match :
    next (exec .chk (holding [0x11, 0x03, 0x00, 0x13, 0x00, 0x02, 0x37, 0x5E])) (fun t =>
      t.rsp = some ⟨.ok, 8, false⟩ && t.crcRx = 0x375E#16 && t.crcCalc = 0x375E#16) = true := by decide +kernel

/-- VC4. -/
theorem test_chk_mismatch :
    next (exec .chk { holding [0x11, 0x03, 0x00, 0x13, 0x00, 0x02, 0x37, 0x5F] with recoveryEn := true })
      (fun t => t.rsp = some ⟨.crcMismatch, 0, true⟩ && t.crcRx = 0x375F#16 && t.crcCalc = 0x375E#16) = true := by
  decide +kernel

/-- VD3, VD5, VD9. -/
theorem test_flt :
    gives (exec (.flt 5) (identified 5 [])) .ok 1 false = true ∧
    gives (exec (.flt 6) (identified 5 [])) .ok 0 false = true ∧
    gives (exec (.flt 255) (identified 5 [])) .ok 0 false = true := by decide

/-- VD1. -/
theorem test_flt_noid : gives (exec (.flt 0) State.reset) .noid 0 false = true := by decide

/-- VD17, VD18. -/
theorem test_fltFb :
    gives (exec .fltFb (identified 5 [0x00])) .ok 1 false = true ∧
    gives (exec .fltFb (identified 5 [0x06])) .ok 0 false = true := by decide

/-- VD2, VD15. -/
theorem test_fltFb_errors :
    gives (exec .fltFb State.reset) .noid 0 false = true ∧
    gives (exec .fltFb (identified 5 [])) .short 0 false = true := by decide

/-- VE4. -/
theorem test_setid :
    next (exec (.setid 247) State.reset) (fun t =>
      t.rsp = some ⟨.ok, 247, false⟩ && t.ownId = 247#8 && t.idValid) = true := by decide

/-- VE7, VE11: the low byte alone is not taken. -/
theorem test_setid_rejects :
    gives (exec (.setid 256) State.reset) .invalidId 0 false = true ∧
    gives (exec (.setid (-248)) State.reset) .invalidId 0 false = true := by decide

/-- VE13, VE14. -/
theorem test_setcfg :
    next (exec (.setcfg true) State.reset) (fun t => t.rsp = some ⟨.ok, 1, false⟩ && t.recoveryEn) = true ∧
    gives (exec (.setcfg false) State.reset) .ok 0 false = true := by decide

/-! ### Ports, steps and the host's entries -/

/-- R20 by VC4's registers. -/
theorem test_csr :
    let s := { identified 5 [0x02, 0x07] with halt := true, crcRx := 0x375F, crcCalc := 0x375E }
    [s.csrRead 0, s.csrRead 1, s.csrRead 2, s.csrRead 3, s.csrRead 4, s.csrRead 5, s.csrRead 6, s.csrRead 7] =
      [0x0105#16, 0, 1, 2, 0xFFFF, 0x375F, 0x375E, 0] := by decide

/-- R30, R31: the buffer port reads a stale byte. -/
theorem test_fbPort : ({ holding [0x11, 0x03] with len := 0 } : State).fbPort 1 = 0x03#8 := by decide

/-- R45: the word the opcode table numbers is the command word, and the next step runs it. -/
theorem test_withFetchWord :
    decodeTableWord 64 0x5000000005000000 = some (.setid 5) ∧
    decodeTableWord 64 0 = none ∧
    next (step (State.reset.withFetchWord 64 0x5000000005000000)) (fun t =>
      t.ownId = 5#8 && t.idValid && t.inputs = []) = true := by decide

/-- R140, R131: a reset takes a halted machine out of HALT. -/
theorem test_reset_clears_halt :
    next (step { halted with inputs := [.reset] }) (fun t => !t.halt && t.len = 0 && t.resets = 1) = true := by decide

/-- A byte is overwritten in its place. -/
theorem test_memory_overwrite :
    Memory.write [(0, 0x11#8), (2, 0x22)] 2 0x33 = [(0, 0x11#8), (2, 0x33)] ∧
    Memory.write [(0, 0x11#8), (2, 0x22)] 1 0x33 = [(0, 0x11#8), (1, 0x33), (2, 0x22)] := by decide

/-- R54: a line with spaces, a hexadecimal operand and a comment. -/
theorem test_assembler :
    assembleLine "  LOAD 0x02, 7 ; two bytes".toList = .ok [.clr, .push 0x02, .push 0x07] := by decide +kernel

/-! ### Witnesses: every statement's hypotheses, met -/

theorem witness_DecodeOfEncodeIsTheCommand :
    (Instr.setid (-32768)).wellFormed = true ∧ (Instr.setid 32767).wellFormed = true ∧
    (Instr.bldReq 0xFF 0xFF 0xFFFF 0xFFFF).wellFormed = true ∧ (Instr.setcfg true).wellFormed = true := by decide

theorem witness_DecodedWordIsTheOnlySpelling :
    decode 0x20FFFFFFFFFFFF00#64 = .command (.bldReq 0xFF 0xFF 0xFFFF 0xFFFF) ∧
    decode 0x5000008000000000#64 = .command (.setid (-32768)) := by decide

theorem witness_DecoderIsTheMatchAndMaskTable :
    ∃ row ∈ maskTable, 0x5101000000000000#64 &&& row.mask = row.pattern ∧
      decode 0x5101000000000000#64 = .command (.setcfg true) := by decide

theorem witness_StepRunsThePresentedCommand :
    (State.reset.present 0x2400000000000000#64).inputs = .command 0x2400000000000000#64 :: [] ∧
    decode 0x2400000000000000#64 = .command .clr := by decide

theorem witness_IllegalWordIsAnsweredIllegal :
    (State.reset.present 0#64).halt = false ∧ (State.reset.present 0#64).inputs = .command 0#64 :: [] ∧
    decode 0#64 = .illegal .unassignedOpcode := by decide

theorem witness_HaltedMachineAnswersHalted : halted.halt = true := by decide

theorem witness_HaltedStateStaysUntilReset :
    halted.halt = true ∧ (∃ t, step halted = .next t) ∧
    ∃ t, step (halted.present 0x2400000000000000#64) = .next t := ⟨rfl, ⟨_, rfl⟩, _, rfl⟩

theorem witness_TestsAreMadeInTheFixedOrder :
    (withLen 256).lenInRange ∧ (withLen 255).lenInRange ∧ State.reset.lenInRange ∧ halted.lenInRange := by
  simp only [State.lenInRange]; decide

theorem witness_EveryStepCompletes : (withLen 256).lenInRange ∧ State.reset.lenInRange := by
  simp only [State.lenInRange]; decide

/-- Both sides of the equivalence: LEN = 257 stops, LEN = 256 does not. -/
theorem witness_FaultsAreExactlyLenOutOfRange :
    exec .crcBuf (withLen 257) = .fault .noSuchFrameByte ∧ exec (.push 0) (withLen 257) = .fault .noSuchFrameByte ∧
    exec .chk (withLen 257) = .fault .noSuchFrameByte ∧ ∃ t, exec .crcBuf (withLen 256) = .next t :=
  ⟨rfl, rfl, rfl, _, rfl⟩

/-- A state that meets the invariant, with a frame and an identifier. -/
theorem inv_identified : (identified 247 [0x05, 0x03]).Inv :=
  ⟨by simp only [State.lenInRange]; decide, by simp only [State.idInRange]; decide,
    by simp only [State.frameWritten]; decide, by decide⟩

theorem witness_EveryStepKeepsTheInvariant :
    (identified 247 [0x05, 0x03]).Inv ∧ ∃ t, step (identified 247 [0x05, 0x03]) = .next t :=
  ⟨inv_identified, _, rfl⟩

/-- The three kinds of error answer. -/
theorem witness_ErrorAnswersArePrecise :
    gives (acceptWord 0x4000000000000000#64 State.reset) .noid 0 false = true ∧
    gives (acceptWord 0x3000000000000000#64 (holding [0, 0])) .crcMismatch 0 false = true ∧
    gives (acceptWord 0x20F8030000000100#64 State.reset) .assert 0 false = true := by decide +kernel

/-- Every status that a command can answer with. -/
theorem witness_StatusesAreRaisedAsTheTableSays :
    gives (exec .clr State.reset) .ok 0 false = true ∧
    gives (exec (.setid 248) State.reset) .invalidId 0 false = true ∧
    gives (exec .chk (holding [0, 0])) .crcMismatch 0 false = true ∧
    gives (exec (.bldRsp 248 3) State.reset) .assert 0 false = true ∧
    gives (exec (.push 0) (withLen 256)) .overflow 0 false = true ∧
    gives (exec .appcrc (withLen 255)) .overflow 0 false = true ∧
    gives (exec .chk (withLen 1)) .short 0 false = true ∧
    gives (exec .fltFb (identified 5 [])) .short 0 false = true ∧
    gives (exec (.flt 0) State.reset) .noid 0 false = true ∧
    gives (exec .clr halted) .halted 0 false = true := by decide +kernel

theorem witness_FlushRequestOnlyOnMismatch :
    gives (acceptWord 0x3000000000000000#64 { holding [0, 0] with recoveryEn := true }) .crcMismatch 0 true = true ∧
    gives (acceptWord 0x3000000000000000#64 (holding [0xFF, 0xFF])) .ok 2 false = true := by decide +kernel

/-- Each item is written by some command. -/
theorem witness_OnlyTheseCommandsWriteEachItem :
    next (exec (.push 7) (holding [0])) (fun t => t.fbByte 1 = 7 && t.len ≠ 1) = true ∧
    next (exec (.crcByte 7) State.reset) (fun t => t.accHi ≠ 0xFF) = true ∧
    next (exec (.setid 7) State.reset) (fun t => t.ownId ≠ 0) = true ∧
    next (exec (.setcfg true) State.reset) (fun t => t.recoveryEn) = true ∧
    next (exec .chk (holding [0, 0])) (fun t => t.crcCalc ≠ 0) = true ∧
    next (exec (.bldRsp 248 0) State.reset) (fun t => t.halt) = true := by decide +kernel

theorem witness_OnlyTheseCommandsReadEachItem :
    (∃ t, exec (.setid 7) State.reset = .next t) ∧ Instr.mnemonic (.setid 7) ∉ ["FLT", "FLT.FB"] ∧
    Instr.mnemonic (.setid 7) ≠ "CRC.BYTE" ∧
    Instr.mnemonic (.setid 7) ∉ ["CRC.BUF", "PUSH", "APPCRC", "CHK", "FLT.FB"] :=
  ⟨⟨_, rfl⟩, by decide, by decide, by decide⟩

/-- Two buffers that differ in a stale byte only. -/
theorem witness_StaleBytesReachNoCommand :
    (∃ t, exec .crcBuf (holding [0x02]) = .next t) ∧
    ∀ a, a < (holding [0x02]).len.toNat →
      State.fbByte { holding [0x02] with fb := [(0, 0x02), (1, 0x55)] } a = (holding [0x02]).fbByte a :=
  ⟨⟨_, rfl⟩, by decide⟩

theorem witness_UnwrittenBytesReachNoCommand :
    (identified 247 [0x05, 0x03]).Inv ∧ ∃ t, exec .chk (identified 247 [0x05, 0x03]) = .next t :=
  ⟨inv_identified, _, rfl⟩

theorem witness_RecoverySwitchGatesOnlyTheFlush :
    Instr.mnemonic .chk ≠ "SETCFG" ∧ gives (exec .chk (holding [0, 0])) .crcMismatch 0 false = true ∧
    gives (exec .chk { holding [0, 0] with recoveryEn := true }) .crcMismatch 0 true = true := by decide +kernel

theorem witness_WholeFrameChecksumsStartFromTheSeed :
    gives (exec .crcBuf { holding [0x02, 0x07] with accHi := 0, accLo := 1 }) .ok 0x4112 false = true ∧
    gives (exec .appcrc { holding [0x02, 0x07] with accHi := 0, accLo := 1 }) .ok 4 false = true ∧
    gives (exec .chk { holding [0, 0] with accHi := 0, accLo := 1 }) .crcMismatch 0 false = true := by decide +kernel

theorem witness_ResetInputGivesTheResetState :
    ({ halted with inputs := [.reset] } : State).inputs = .reset :: [] := by decide

theorem witness_OnlyResetClearsHaltAndIdValid :
    next (step { identified 5 [] with halt := true, inputs := [.reset] }) (fun t => !t.halt && !t.idValid) = true := by
  decide

/-- The running machine of the statements about one command. -/
theorem witness_CrcInitSeedsTheAccumulators : State.reset.halt = false := by decide

theorem witness_CrcByteTakesOneStep : State.reset.halt = false := by decide

theorem witness_ClrEmptiesTheFrame : (holding [0x11]).halt = false := by decide

theorem witness_SetcfgSetsTheRecoverySwitch : State.reset.halt = false ∧ 2 ≤ (2#8).toNat ∧ 2 ≤ (255#8).toNat := by decide

theorem witness_IdentifierZeroIsAccepted : State.reset.halt = false := by decide

theorem witness_SetidAcceptsExactlyTheRawRange :
    State.reset.halt = false ∧ (0x00F7#16).toInt = 247 ∧ (0x00F8#16).toInt = 248 ∧ (0xFFFF#16).toInt = -1 := by decide

theorem witness_CrcBufAnswersTheFrameChecksum :
    (withLen 256).halt = false ∧ (withLen 256).lenInRange ∧ (withLen 0).lenInRange := by
  simp only [State.lenInRange]; decide

/-- The destinations where the two clauses meet. -/
theorem witness_BldReqLaysOutTheRequestBasis :
    State.reset.halt = false ∧ (247#8).toNat ≤ 247 ∧ 248 ≤ (248#8).toNat ∧ (0#8).toNat ≤ 247 := by decide

theorem witness_BldRspLaysOutTheResponseBasis :
    State.reset.halt = false ∧ (247#8).toNat ≤ 247 ∧ 248 ≤ (248#8).toNat ∧ (0#8).toNat ≤ 247 := by decide

/-- LEN = 255 and LEN = 256. -/
theorem witness_PushAppendsOneByte :
    (withLen 255).halt = false ∧ (withLen 255).len.toNat < 256 ∧
    (withLen 256).halt = false ∧ (withLen 256).len.toNat = 256 := by decide

/-- LEN = 254 and LEN = 255. -/
theorem witness_AppcrcAppendsTheFrameChecksum :
    (withLen 254).halt = false ∧ (withLen 254).len.toNat ≤ 254 ∧
    (withLen 255).halt = false ∧ 254 < (withLen 255).len.toNat := by decide

/-- LEN = 1, LEN = 2 with a match and with a mismatch, and LEN = 256. -/
theorem witness_ChkComparesTheTrailingChecksum :
    (withLen 1).halt = false ∧ (withLen 1).len.toNat < 2 ∧
    (holding [0xFF, 0xFF]).halt = false ∧ 2 ≤ (holding [0xFF, 0xFF]).len.toNat ∧
    (holding [0xFF, 0xFF]).len.toNat ≤ 256 ∧ 2 ≤ (withLen 256).len.toNat ∧ (withLen 256).len.toNat ≤ 256 ∧
    0xFFFF#16 = (holding [0xFF, 0xFF]).fbByte 0 ++ (holding [0xFF, 0xFF]).fbByte 1 ∧
    0x0000#16 = (holding [0, 0]).fbByte 0 ++ (holding [0, 0]).fbByte 1 ∧
    0xFFFF#16 = checksum ((holding [0, 0]).prefixBytes 0) := by decide

theorem witness_FltAnswersTheFilter :
    (identified 5 []).halt = false ∧ (identified 5 []).idValid = true ∧
    State.reset.halt = false ∧ State.reset.idValid = false := by decide

/-- LEN = 1, LEN = 0, and no identifier. -/
theorem witness_FltFbFiltersTheFirstByte :
    (identified 5 [0x05]).halt = false ∧ (identified 5 [0x05]).idValid = true ∧
    1 ≤ (identified 5 [0x05]).len.toNat ∧ (identified 5 []).halt = false ∧ (identified 5 []).idValid = true ∧
    (identified 5 []).len.toNat = 0 ∧ State.reset.halt = false ∧ State.reset.idValid = false := by decide

/-- The candidates 0 and 247, and -1 and 248. -/
theorem witness_SetidStoresALegalIdentifier :
    State.reset.halt = false ∧ 0 ≤ 247 ∧ 247 ≤ 247 ∧ ((-1 : Int) < 0 ∨ 247 < (-1 : Int)) ∧
    ((248 : Int) < 0 ∨ 247 < (248 : Int)) := by decide

theorem witness_FltFbIsFltOfTheFirstByte : 1 ≤ (identified 5 [0x05]).len.toNat := by decide

theorem witness_FilterIsTwoEqualities : (247#8).toNat ≤ 247 ∧ 248 ≤ (248#8).toNat := by decide

theorem witness_ChecksumResidueIsZero : crcStep 0xFF 0xFF 0x02 = crcStep 0xFF 0xFF 0x02 := by decide

theorem witness_LoadMakesTheBytesTheFrame :
    State.reset.halt = false ∧ (List.replicate 256 0#8).length ≤ 256 ∧ ([] : List Byte).length ≤ 256 := by
  simp only [List.length_replicate]; decide

theorem witness_StreamedChecksumIsTheChecksum : State.reset.halt = false := by decide

theorem witness_ChkAcceptsOnlyTheTrueChecksum :
    State.reset.halt = false ∧ ([] : List Byte).length ≤ 254 ∧ 0xFF#8 ++ 0xFF#8 = checksum [] ∧
    0x00#8 ++ 0x00#8 ≠ checksum [] := by decide

theorem witness_BuiltFramePassesItsCheck :
    State.reset.halt = false ∧ (247#8).toNat ≤ 247 ∧ (List.replicate 248 0#8).length ≤ 248 ∧
    (List.replicate 252 0#8).length ≤ 252 := by
  simp only [List.length_replicate]; decide

theorem witness_SecondAppcrcAppendsZeros :
    (withLen 252).halt = false ∧ (withLen 252).len.toNat ≤ 252 := by decide

theorem witness_CheckAndFilterAreIndependent :
    (withLen 256).lenInRange ∧ (identified 5 [0x05, 0x03]).lenInRange ∧ halted.lenInRange := by
  simp only [State.lenInRange]; decide

end Sys2Proof.Tests
end

/-! # What a command reads and what it writes (10_state.md R24)

A command reads some items, and from them alone it determines a plan: which items it writes, with which
values, and the response. Running the command is carrying out its plan (`exec_eq_plan`). What a command changes
is then read off the writes of its plan, and an item that the plan does not depend on reaches no other item. -/

namespace Sys2Proof.Machine

/-- One write to an item of R10; `bytes` writes to the frame buffer from an address on. -/
inductive Write where
  | bytes (a : Nat) (bs : List Byte)
  | len (n : LenWord)
  | acc (c : Word16)
  | ident (own : Byte)
  | recoveryEn (en : Bool)
  | diagnostics (rx recomputed : Word16)
  | halt

/-- The write, by the model's own updates of a state. -/
def Write.apply : Write → State → State
  | .bytes a bs, s => { s with fb := s.fb.writeBytes a bs }
  | .len n, s => s.setLen n
  | .acc c, s => s.setAcc c
  | .ident own, s => s.setOwnId own
  | .recoveryEn en, s => s.setRecoveryEn en
  | .diagnostics rx recomputed, s => s.setDiagnostics rx recomputed
  | .halt, s => s.setHalt

/-- The write columns of R24: the commands that may make a write (HALT by ASSERT, R125). -/
def Write.commands : Write → List String
  | .bytes _ _ => ["BLD.REQ", "BLD.RSP", "PUSH", "APPCRC"]
  | .len _ => ["BLD.REQ", "BLD.RSP", "PUSH", "APPCRC", "CLR"]
  | .acc _ => ["CRC.INIT", "CRC.BYTE", "CRC.BUF", "APPCRC", "CHK"]
  | .ident _ => ["SETID"]
  | .recoveryEn _ => ["SETCFG"]
  | .diagnostics _ _ => ["CHK"]
  | .halt => ["BLD.REQ", "BLD.RSP"]

/-- Writes made one after the other. -/
def applyAll (ws : List Write) (s : State) : State := ws.foldl (fun u w => w.apply u) s

@[simp] theorem applyAll_nil (s : State) : applyAll [] s = s := rfl

@[simp] theorem applyAll_cons (w : Write) (ws : List Write) (s : State) :
    applyAll (w :: ws) s = applyAll ws (w.apply s) := rfl

/-- What a command does once it has read what it reads: its writes, in order, and its one response. -/
structure Plan where
  writes : List Write
  rsp : Response

/-- Carrying out a plan. -/
def Plan.run (p : Plan) (s : State) : State := { applyAll p.writes s with rsp := some p.rsp }

/-- The plan of an answer OK (R9). -/
def Plan.answer (ws : List Write) (value : Word16) : Plan := ⟨ws, ⟨.ok, value, false⟩⟩

/-- The plan of an error answer that writes nothing (R9, R129). -/
def Plan.raise (status : Status) : Plan := ⟨[], ⟨status, 0#16, false⟩⟩

/-- The plan of a builder (R75, R76). -/
def planBasis (d : Byte) (basis : List Byte) : Plan :=
  let n := BitVec.ofNat 9 basis.length
  if validId d then .answer [.bytes 0 basis, .len n] (lenValue n) else ⟨[.halt], ⟨.assert, 0#16, false⟩⟩

/-- The plan of the append form (R59), with further writes after it. -/
def planAppend (s : State) (bs : List Byte) (more : List Write) : Except Fault Plan :=
  let n := s.len + BitVec.ofNat 9 bs.length
  if s.len.toNat + bs.length ≤ Config.frameMax then
    .ok (.answer ([.bytes s.len.toNat bs, .len n] ++ more) (lenValue n))
  else .error .noSuchFrameByte

/-- The plan of a comparison of checksums (R90 to R93). -/
def planCompare (s : State) (rx recomputed : Word16) : Plan :=
  ⟨[.diagnostics rx recomputed, .acc recomputed],
    if rx = recomputed then ⟨.ok, lenValue s.len, false⟩ else ⟨.crcMismatch, 0#16, s.flushRequest⟩⟩

/-- The two checksums of CHK (R90): the trailing bytes, big-endian, and that of the bytes before them. -/
def readChecksums (s : State) : Except Fault (Word16 × Word16) := do
  let hi ← s.loadByte (s.len.toNat - 2)
  let lo ← s.loadByte (s.len.toNat - 1)
  let bytes ← s.sweep (s.len.toNat - Config.crcSuffixLen)
  .ok (joinBytes hi lo, checksum bytes)

/-- The plan of each command on a machine that is not halted. -/
def runningPlan (i : Instr) (s : State) : Except Fault Plan :=
  match i with
  | .crcBuf => do
    let bytes ← s.sweep s.len.toNat
    .ok (.answer [.acc (checksum bytes)] (checksum bytes))
  | .crcInit => .ok (.answer [.acc Config.crcSeed] Config.crcSeed)
  | .crcByte b =>
    let p := crcStep s.accHi s.accLo b
    .ok (.answer [.acc (joinBytes p.1 p.2)] (joinBytes p.1 p.2))
  | .bldReq d fc addr cnt => .ok (planBasis d (requestBasis d fc addr cnt))
  | .bldRsp d fc => .ok (planBasis d (responseBasis d fc))
  | .push b => if s.len.toNat = Config.frameMax then .ok (.raise .overflow) else planAppend s [b] []
  | .appcrc =>
    if Config.frameMax - Config.crcSuffixLen < s.len.toNat then .ok (.raise .overflow)
    else do
      let bytes ← s.sweep s.len.toNat
      planAppend s (wireBytes (checksum bytes)) [.acc (checksum bytes)]
  | .clr => .ok (.answer [.len 0#9] 0#16)
  | .chk =>
    if s.len.toNat < Config.crcSuffixLen then .ok (.raise .short)
    else do
      let c ← readChecksums s
      .ok (planCompare s c.1 c.2)
  | .flt d => .ok (if s.idValid then .answer [] (bitValue (accepts s.ownId d)) else .raise .noid)
  | .fltFb =>
    if s.idValid then
      if s.len.toNat = 0 then .ok (.raise .short)
      else do
        let d ← s.loadByte 0
        .ok (.answer [] (bitValue (accepts s.ownId d)))
    else .ok (.raise .noid)
  | .setid c =>
    .ok (if validCandidate c then .answer [.ident (candidateByte c)] (byteValue (candidateByte c))
      else .raise .invalidId)
  | .setcfg en => .ok (.answer [.recoveryEn en] (bitValue en))

/-- The plan of each command: HALTED first (R126). -/
def plan (i : Instr) (s : State) : Except Fault Plan :=
  if s.halt then .ok (.raise .halted) else runningPlan i s

/-! ### Running a command is carrying out its plan -/

/-- A plan found by reading first is carried out by reading first. -/
theorem attempt_bind {α β : Type} (e : Except Fault α) (f : α → Except Fault β) (k : β → Result) :
    attempt (e >>= f) k = attempt e fun x => attempt (f x) k := by cases e <;> rfl

theorem buildBasis_eq_plan {s : State} {d : Byte} {basis : List Byte} (hh : s.halt = false)
    (hl : basis.length ≤ 256) : buildBasis d basis s = .next ((planBasis d basis).run s) := by
  rw [buildBasis, s.unlessHalted_running _ hh, s.startFrame_ok hl, planBasis]
  split <;> rfl

theorem attempt_appendBytes (s : State) (bs : List Byte) (more : List Write) :
    (attempt (s.appendBytes bs) fun t => .next ((applyAll more t).answer (lenValue t.len))) =
      attempt (planAppend s bs more) fun p => .next (p.run s) := by
  by_cases h : s.len.toNat + bs.length ≤ 256
  · rw [s.appendBytes_ok h, planAppend, if_pos h]; rfl
  · simp [planAppend, State.appendBytes, State.storeBytes, h]

theorem compareChecksums_eq_plan (s : State) (rx recomputed : Word16) :
    compareChecksums rx recomputed s = (planCompare s rx recomputed).run s := by
  simp only [compareChecksums, planCompare]
  split <;> rfl

/-- On a machine that is not halted, a command carries out the plan that its reads determine. -/
theorem exec_eq_runningPlan (i : Instr) {s : State} (hh : s.halt = false) :
    exec i s = attempt (runningPlan i s) fun p => .next (p.run s) := by
  have run (r : Result) : s.unlessHalted r = r := s.unlessHalted_running r hh
  cases i with
  | crcBuf => simp only [exec, execCrcBuf, run, runningPlan, attempt_bind]; rfl
  | crcInit => exact run _
  | crcByte b => exact run _
  | bldReq d fc addr cnt => exact buildBasis_eq_plan hh (Nat.le_of_ble_eq_true rfl)
  | bldRsp d fc => exact buildBasis_eq_plan hh (Nat.le_of_ble_eq_true rfl)
  | push b =>
    simp only [exec, execPush, run, runningPlan]
    split
    · rfl
    · exact attempt_appendBytes s [b] []
  | appcrc =>
    simp only [exec, execAppcrc, run, runningPlan]
    split
    · rfl
    · simp only [attempt_bind, ← attempt_appendBytes]; rfl
  | clr => exact run _
  | chk =>
    simp only [exec, execChk, run, runningPlan]
    split
    · rfl
    · simp only [readChecksums, attempt_bind, attempt_ok, compareChecksums_eq_plan]
  | flt d =>
    simp only [exec, execFlt, run, runningPlan, State.unlessNoId]
    split <;> rfl
  | fltFb =>
    simp only [exec, execFltFb, run, runningPlan, State.unlessNoId]
    split
    · split
      · rfl
      · rw [attempt_bind]; rfl
    · rfl
  | setid c =>
    simp only [exec, execSetid, run, runningPlan]
    split <;> rfl
  | setcfg en => exact run _

/-- Every command carries out the plan that its reads determine. -/
theorem exec_eq_plan (i : Instr) (s : State) :
    exec i s = attempt (plan i s) fun p => .next (p.run s) := by
  cases hh : s.halt with
  | true => rw [exec_halted i hh, plan, hh]; rfl
  | false => rw [exec_eq_runningPlan i hh, plan, hh]; rfl

/-- A command answers exactly when its reads determine a plan, and then with the plan carried out. -/
theorem exec_eq_next_iff {i : Instr} {s t : State} :
    exec i s = .next t ↔ ∃ p, plan i s = .ok p ∧ p.run s = t := by
  rw [exec_eq_plan]
  cases plan i s <;> simp

end Sys2Proof.Machine

/-! # What a command changes: the write sets (R10, R24) -/

namespace Sys2Proof.Machine

variable {i : Instr} {s t : State}

/-- A plan that is found by reading first. -/
theorem bind_eq_ok {α β : Type} {e : Except Fault α} {f : α → Except Fault β} {y : β}
    (h : e >>= f = .ok y) : ∃ x, e = .ok x ∧ f x = .ok y := by
  cases e with
  | ok x => exact ⟨x, rfl, h⟩
  | error r => cases h

theorem planBasis_writes (d : Byte) (basis : List Byte) :
    (planBasis d basis).writes = [.bytes 0 basis, .len (BitVec.ofNat 9 basis.length)] ∨
      (planBasis d basis).writes = [.halt] := by
  unfold planBasis
  split
  · exact .inl rfl
  · exact .inr rfl

theorem planAppend_writes {bs : List Byte} {more : List Write} {p : Plan}
    (h : planAppend s bs more = .ok p) :
    p.writes = .bytes s.len.toNat bs :: .len (s.len + BitVec.ofNat 9 bs.length) :: more := by
  unfold planAppend at h
  split at h <;> cases h
  rfl

/-- A plan only makes writes that R24 permits its command. -/
theorem runningPlan_permitted {p : Plan} (h : runningPlan i s = .ok p) :
    ∀ w ∈ p.writes, i.mnemonic ∈ w.commands := by
  cases i with
  | crcBuf =>
    obtain ⟨bytes, -, h⟩ := bind_eq_ok h
    cases h
    simp [Plan.answer, Write.commands, Instr.mnemonic]
  | crcInit => cases h; simp [Plan.answer, Write.commands, Instr.mnemonic]
  | crcByte b => cases h; simp [Plan.answer, Write.commands, Instr.mnemonic]
  | bldReq d fc addr cnt =>
    cases h
    rcases planBasis_writes d (requestBasis d fc addr cnt) with hw | hw <;>
      simp [hw, Write.commands, Instr.mnemonic]
  | bldRsp d fc =>
    cases h
    rcases planBasis_writes d (responseBasis d fc) with hw | hw <;>
      simp [hw, Write.commands, Instr.mnemonic]
  | push b =>
    simp only [runningPlan] at h
    split at h
    · cases h; simp [Plan.raise]
    · simp [planAppend_writes h, Write.commands, Instr.mnemonic]
  | appcrc =>
    simp only [runningPlan] at h
    split at h
    · cases h; simp [Plan.raise]
    · obtain ⟨bytes, -, h⟩ := bind_eq_ok h
      simp [planAppend_writes h, Write.commands, Instr.mnemonic]
  | clr => cases h; simp [Plan.answer, Write.commands, Instr.mnemonic]
  | chk =>
    simp only [runningPlan] at h
    split at h
    · cases h; simp [Plan.raise]
    · obtain ⟨c, -, h⟩ := bind_eq_ok h
      cases h
      simp [planCompare, Write.commands, Instr.mnemonic]
  | flt d =>
    cases h
    split <;> simp [Plan.answer, Plan.raise]
  | fltFb =>
    simp only [runningPlan] at h
    split at h
    · split at h
      · cases h; simp [Plan.raise]
      · obtain ⟨d, -, h⟩ := bind_eq_ok h
        cases h
        simp [Plan.answer]
    · cases h; simp [Plan.raise]
  | setid c =>
    cases h
    split <;> simp [Plan.answer, Plan.raise, Write.commands, Instr.mnemonic]
  | setcfg en => cases h; simp [Plan.answer, Write.commands, Instr.mnemonic]

theorem plan_permitted {p : Plan} (h : plan i s = .ok p) : ∀ w ∈ p.writes, i.mnemonic ∈ w.commands := by
  unfold plan at h
  split at h
  · cases h; simp [Plan.raise]
  · exact runningPlan_permitted h

/-- Writes that each keep a part of the state keep it together. -/
theorem applyAll_keeps {α : Type} (g : State → α) {ws : List Write} (s : State)
    (h : ∀ w ∈ ws, ∀ u, g (w.apply u) = g u) : g (applyAll ws s) = g s := by
  induction ws generalizing s with
  | nil => rfl
  | cons w ws ih =>
    rw [applyAll_cons, ih _ fun w' hw' => h w' (List.mem_cons_of_mem w hw'), h w List.mem_cons_self]

/-- A part `g` of the state changes only under the commands `names`, when no response changes it and each write
either keeps it or is a write of those commands only. Both are a look at each of the writes. -/
theorem mnemonic_mem_of_changed {α : Type} {names : List String} (g : State → α) (h : exec i s = .next t)
    (hne : g t ≠ g s) (hrsp : ∀ u r, g { u with rsp := r } = g u := by intros; rfl)
    (hw : ∀ (w : Write) (u : State), g (w.apply u) = g u ∨ w.commands ⊆ names := by
      intro w u; cases w <;> simp [Write.apply, Write.commands]) : i.mnemonic ∈ names := by
  by_contra hi
  obtain ⟨p, hp, rfl⟩ := exec_eq_next_iff.mp h
  refine hne ((hrsp _ _).trans (applyAll_keeps g s fun w hmem u => (hw w u).resolve_right fun hsub => ?_))
  exact hi (hsub (plan_permitted hp w hmem))

/-- What the host presents and the count of resets are changed by no command. -/
theorem exec_inputs_resets (h : exec i s = .next t) : t.inputs = s.inputs ∧ t.resets = s.resets := by
  by_contra hne
  exact List.not_mem_nil (mnemonic_mem_of_changed (fun u => (u.inputs, u.resets)) h (mt Prod.mk.inj hne))

/-- Settles O19: a plan makes only permitted writes, and each item is changed by the writes to it alone. -/
theorem onlyTheseCommandsWriteEachItem : Obligations.OnlyTheseCommandsWriteEachItem := by
  intro i s t h
  refine ⟨?_, ?_, ?_, ?_, ?_, ?_, ?_, exec_inputs_resets h⟩
  · rintro ⟨a, hne⟩
    exact mnemonic_mem_of_changed (·.fbByte a) h hne
  · exact mnemonic_mem_of_changed (·.len) h
  · exact fun hne => mnemonic_mem_of_changed (fun u => (u.accHi, u.accLo)) h
      (mt Prod.mk.inj (not_and_or.mpr hne))
  · exact fun hne => List.mem_singleton.mp <|
      mnemonic_mem_of_changed (fun u => (u.ownId, u.idValid)) h (mt Prod.mk.inj (not_and_or.mpr hne))
  · exact fun hne => List.mem_singleton.mp <| mnemonic_mem_of_changed (·.recoveryEn) h hne
  · exact fun hne => List.mem_singleton.mp <|
      mnemonic_mem_of_changed (fun u => (u.crcRx, u.crcCalc)) h (mt Prod.mk.inj (not_and_or.mpr hne))
  · exact mnemonic_mem_of_changed (·.halt) h

end Sys2Proof.Machine

/-! # What a command does not read: noninterference (R16, R21, R24) -/

namespace Sys2Proof.Machine

variable {i : Instr} {s s' t : State}

/-- `copy v u` is `u` with some registers taken over from `v`. Taking them over after a write or a response is
the same write or response made after taking them over. -/
structure Copies (copy : State → State → State) : Prop where
  write : ∀ (w : Write) (v u : State), copy (w.apply v) (w.apply u) = w.apply (copy v u)
  rsp : ∀ (x : Option Response) (v u : State),
    copy { v with rsp := x } { u with rsp := x } = { copy v u with rsp := x }

def copyIdent (v u : State) : State := { u with ownId := v.ownId, idValid := v.idValid }

def copyAcc (v u : State) : State := { u with accHi := v.accHi, accLo := v.accLo }

def copyLen (v u : State) : State := { u with len := v.len }

def copyDiagnostics (v u : State) : State := { u with crcRx := v.crcRx, crcCalc := v.crcCalc }

def copyRsp (v u : State) : State := { u with rsp := v.rsp }

def copySwitch (v u : State) : State := { u with recoveryEn := v.recoveryEn }

theorem copies_ident : Copies copyIdent := ⟨fun w _ _ => by cases w <;> rfl, fun _ _ _ => rfl⟩

theorem copies_acc : Copies copyAcc := ⟨fun w _ _ => by cases w <;> rfl, fun _ _ _ => rfl⟩

theorem copies_len : Copies copyLen := ⟨fun w _ _ => by cases w <;> rfl, fun _ _ _ => rfl⟩

theorem copies_diagnostics : Copies copyDiagnostics := ⟨fun w _ _ => by cases w <;> rfl, fun _ _ _ => rfl⟩

theorem copies_rsp : Copies copyRsp := ⟨fun w _ _ => by cases w <;> rfl, fun _ _ _ => rfl⟩

theorem copies_switch : Copies copySwitch := ⟨fun w _ _ => by cases w <;> rfl, fun _ _ _ => rfl⟩

theorem Copies.applyAll {copy : State → State → State} (hc : Copies copy) (ws : List Write) (v u : State) :
    copy (applyAll ws v) (applyAll ws u) = applyAll ws (copy v u) := by
  induction ws generalizing v u with
  | nil => rfl
  | cons w ws ih => simp only [applyAll_cons, ih, hc.write]

/-- Registers taken over after a plan are as good as taken over before it. -/
theorem Copies.run {copy : State → State → State} (hc : Copies copy) (p : Plan) (v u : State) :
    copy (p.run v) (p.run u) = p.run (copy v u) := by
  simp only [Plan.run, hc.rsp, hc.applyAll]

/-- Registers that make no difference to the plan reach no other item, and not the response. -/
theorem exec_of_plan_eq {copy : State → State → State} (hc : Copies copy) (hs : copy s s' = s)
    (hplan : plan i s' = plan i s) (h : exec i s = .next t) : ∃ t', exec i s' = .next t' ∧ copy t t' = t := by
  obtain ⟨p, hp, rfl⟩ := exec_eq_next_iff.mp h
  exact ⟨p.run s', exec_eq_next_iff.mpr ⟨p, hplan.trans hp, rfl⟩, by rw [hc.run, hs]⟩

theorem plan_ident (hi : i.mnemonic ∉ ["FLT", "FLT.FB"]) (own : Byte) (valid : Bool) :
    plan i { s with ownId := own, idValid := valid } = plan i s := by
  cases i
  case flt | fltFb => simp [Instr.mnemonic] at hi
  all_goals rfl

theorem plan_acc (hi : i.mnemonic ≠ "CRC.BYTE") (accHi accLo : Byte) :
    plan i { s with accHi := accHi, accLo := accLo } = plan i s := by
  cases i
  case crcByte => simp [Instr.mnemonic] at hi
  all_goals rfl

theorem plan_len (hi : i.mnemonic ∉ ["CRC.BUF", "PUSH", "APPCRC", "CHK", "FLT.FB"]) (n : LenWord) :
    plan i { s with len := n } = plan i s := by
  cases i
  case crcBuf | push | appcrc | chk | fltFb => simp [Instr.mnemonic] at hi
  all_goals rfl

theorem plan_diagnostics (rx recomputed : Word16) :
    plan i { s with crcRx := rx, crcCalc := recomputed } = plan i s := by cases i <;> rfl

theorem plan_rsp (x : Option Response) : plan i { s with rsp := x } = plan i s := by cases i <;> rfl

/-- Settles O20: a register outside a command's read set makes no difference to the command's plan. -/
theorem onlyTheseCommandsReadEachItem : Obligations.OnlyTheseCommandsReadEachItem := by
  intro i s t h
  refine ⟨fun hi own valid => ?_, fun hi accHi accLo => ?_, fun hi n => ?_, fun rx recomputed => ?_⟩
  · exact exec_of_plan_eq copies_ident (by rfl) (plan_ident hi own valid) h
  · exact exec_of_plan_eq copies_acc (by rfl) (plan_acc hi accHi accLo) h
  · exact exec_of_plan_eq copies_len (by rfl) (plan_len hi n) h
  · exact exec_of_plan_eq copies_diagnostics (by rfl) (plan_diagnostics rx recomputed) h

/-! ### The response of an earlier step -/

/-- A plan overwrites the response that was there before it. -/
theorem Plan.run_rsp (p : Plan) (x : Option Response) : p.run { s with rsp := x } = p.run s :=
  copies_rsp.run p s { s with rsp := x }

theorem exec_rsp (i : Instr) (s : State) (x : Option Response) : exec i { s with rsp := x } = exec i s := by
  simp only [exec_eq_plan, plan_rsp, Plan.run_rsp]

theorem acceptWord_rsp (w : Word64) (s : State) (x : Option Response) :
    acceptWord w { s with rsp := x } = acceptWord w s := by
  unfold acceptWord
  split
  · exact exec_rsp _ s x
  · rfl

/-- Settles O22: each of the three kinds of step overwrites the response and reads it nowhere. -/
theorem responsesAreNotLatched : Obligations.ResponsesAreNotLatched := by
  intro s x
  simp only [step, acceptNext]
  split
  · rfl
  · rfl
  · rename_i w rest _
    exact acceptWord_rsp w { s with inputs := rest } x

/-! ### The recovery switch -/

/-- The plan with another flush bit in its response. -/
def Plan.withFlush (p : Plan) (f : Bool) : Plan := { p with rsp := { p.rsp with flush := f } }

theorem planCompare_recoveryEn (s : State) (en : Bool) (rx recomputed : Word16) :
    ∃ f, planCompare { s with recoveryEn := en } rx recomputed = (planCompare s rx recomputed).withFlush f := by
  by_cases h : rx = recomputed
  · exact ⟨false, by simp only [planCompare, Plan.withFlush, if_pos h]⟩
  · exact ⟨en, by simp only [planCompare, Plan.withFlush, if_neg h]; rfl⟩

theorem runningPlan_recoveryEn {p : Plan} (en : Bool) (h : runningPlan i s = .ok p) :
    ∃ f, runningPlan i { s with recoveryEn := en } = .ok (p.withFlush f) := by
  cases i
  case chk =>
    simp only [runningPlan] at h
    split at h
    case isTrue hl => cases h; exact ⟨false, if_pos hl⟩
    case isFalse hl =>
      obtain ⟨c, hc, h⟩ := bind_eq_ok h
      cases h
      obtain ⟨f, hf⟩ := planCompare_recoveryEn s en c.1 c.2
      refine ⟨f, (if_neg hl).trans ?_⟩
      change (readChecksums s >>= fun c => .ok (planCompare { s with recoveryEn := en } c.1 c.2)) = _
      rw [hc, ← hf]
      rfl
  all_goals exact ⟨p.rsp.flush, h⟩

/-- RECOVERY_EN reaches nothing of a plan but the flush bit of its response. -/
theorem plan_recoveryEn {p : Plan} (en : Bool) (h : plan i s = .ok p) :
    ∃ f, plan i { s with recoveryEn := en } = .ok (p.withFlush f) := by
  unfold plan at h
  split at h
  case isTrue hh => cases h; exact ⟨false, if_pos hh⟩
  case isFalse hh =>
    obtain ⟨f, hf⟩ := runningPlan_recoveryEn en h
    exact ⟨f, (if_neg hh).trans hf⟩

theorem exec_recoveryEn (hi : i.mnemonic ≠ "SETCFG") (h : exec i s = .next t) :
    t.recoveryEn = s.recoveryEn := by
  by_contra hne
  exact hi (List.mem_singleton.mp (mnemonic_mem_of_changed (·.recoveryEn) h hne))

/-- Settles O24: the plan differs in the flush bit at most, and its writes leave the switch alone. -/
theorem recoverySwitchGatesOnlyTheFlush : Obligations.RecoverySwitchGatesOnlyTheFlush := by
  intro i s t en hi h
  obtain ⟨p, hp, rfl⟩ := exec_eq_next_iff.mp h
  obtain ⟨f, hf⟩ := plan_recoveryEn en hp
  have h' := exec_eq_next_iff.mpr ⟨_, hf, rfl⟩
  refine ⟨p.rsp, f, rfl, h'.trans (congrArg Host.Outcome.next ?_)⟩
  have hsame := copies_switch.run p s { s with recoveryEn := en }
  have hen : ((p.withFlush f).run { s with recoveryEn := en }).recoveryEn = en := exec_recoveryEn hi h'
  calc (p.withFlush f).run { s with recoveryEn := en }
      = { copySwitch (p.run s) (p.run { s with recoveryEn := en }) with
          recoveryEn := ((p.withFlush f).run { s with recoveryEn := en }).recoveryEn,
          rsp := some (p.withFlush f).rsp } := rfl
    _ = { p.run s with recoveryEn := en, rsp := some { p.rsp with flush := f } } := by rw [hsame, hen]; rfl

end Sys2Proof.Machine

/-! # The reset values and the read map (R20, R23) -/

namespace Sys2Proof.Machine

/-- Settles O26: the reset state is written out with these values, and nothing is written to its buffer. -/
theorem resetStateIsAsTheTableSays : Obligations.ResetStateIsAsTheTableSays :=
  ⟨rfl, rfl, rfl, rfl, rfl, rfl, rfl, rfl, rfl, fun _ => rfl⟩

theorem bitValue_getLsbD_zero (b : Bool) : (bitValue b).getLsbD 0 = b := by cases b <;> rfl

theorem bitValue_upper (b : Bool) : (bitValue b).extractLsb' 1 15 = 0#15 := by cases b <;> rfl

theorem lenValue_lower (n : LenWord) : (lenValue n).extractLsb' 0 9 = n :=
  (BitVec.extractLsb'_setWidth_of_le (by decide)).trans BitVec.extractLsb'_eq_self

theorem lenValue_upper (n : LenWord) : (lenValue n).extractLsb' 9 7 = 0#7 := by
  ext k hk
  simp [lenValue]

/-- Bit 8 of a joined pair is the lowest bit of its high byte. -/
theorem joinBytes_getLsbD_eight (hi lo : Byte) : (joinBytes hi lo).getLsbD 8 = hi.getLsbD 0 :=
  BitVec.getLsbD_append

theorem joinBytes_extractLsb'_nine (hi lo : Byte) :
    (joinBytes hi lo).extractLsb' 9 7 = hi.extractLsb' 1 7 :=
  BitVec.extractLsb'_append_eq_of_le (by decide)

/-- Settles O55: each register is a joined pair, a zero-extended field, or a field of 16 bits. -/
theorem statusRegistersReadAsMapped : Obligations.StatusRegistersReadAsMapped := by
  intro s
  refine ⟨loByte_joinBytes _ _, ?_, ?_, bitValue_getLsbD_zero _, bitValue_upper _, bitValue_getLsbD_zero _,
    bitValue_upper _, lenValue_lower _, lenValue_upper _, hiByte_joinBytes _ _, loByte_joinBytes _ _,
    rfl, rfl, rfl⟩
  · refine (joinBytes_getLsbD_eight _ _).trans ?_
    cases s.idValid <;> rfl
  · refine (joinBytes_extractLsb'_nine _ _).trans ?_
    cases s.idValid <;> rfl

end Sys2Proof.Machine

/-! # The only fault: a buffer access beyond the frame buffer (R30, R32)

A command reads below LEN and writes at LEN or at the fixed offsets 0..5, so with LEN in range no access is
beyond the buffer. With LEN above 256, CRC.BUF, PUSH and CHK alone have no guard or fixed offset to keep them
inside it. -/

namespace Sys2Proof.Machine

variable {i : Instr} {s : State}

/-- There is one fault only, so an access that failed tells no more than that it failed. -/
theorem Fault.eq_noSuchFrameByte (f : Fault) : f = .noSuchFrameByte := by cases f; rfl

/-- A sweep of more than 256 bytes faults. -/
theorem State.sweep_error (s : State) {n : Nat} (h : 256 < n) : s.sweep n = .error .noSuchFrameByte :=
  if_neg (not_le.mpr h)

/-- A read at an address above 255 faults. -/
theorem State.loadByte_error (s : State) {a : Nat} (h : 256 ≤ a) : s.loadByte a = .error .noSuchFrameByte :=
  if_neg (not_lt.mpr h)

theorem planAppend_ok {bs : List Byte} (more : List Write) (h : s.len.toNat + bs.length ≤ 256) :
    ∃ p, planAppend s bs more = .ok p :=
  ⟨_, if_pos h⟩

theorem planAppend_error {bs : List Byte} (more : List Write) (h : 256 < s.len.toNat + bs.length) :
    planAppend s bs more = .error .noSuchFrameByte :=
  if_neg (not_le.mpr h)

theorem readChecksums_ok (hl : s.len.toNat ≤ 256) (hl' : 2 ≤ s.len.toNat) : ∃ c, readChecksums s = .ok c := by
  rw [readChecksums, s.loadByte_ok (by omega), s.loadByte_ok (by omega), s.sweep_ok (by omega)]
  exact ⟨_, rfl⟩

/-- With LEN above 256 the last byte of the frame does not exist, whether or not the one before it does. -/
theorem readChecksums_error (h : 256 < s.len.toNat) : readChecksums s = .error .noSuchFrameByte := by
  rw [readChecksums, s.loadByte_error (a := s.len.toNat - 1) (by omega)]
  cases s.loadByte (s.len.toNat - 2) with
  | ok hi => rfl
  | error f => exact congrArg Except.error f.eq_noSuchFrameByte

/-- With LEN in range every command finds its plan (R32). -/
theorem runningPlan_ok (i : Instr) (hl : s.len.toNat ≤ 256) : ∃ p, runningPlan i s = .ok p := by
  cases i with
  | crcBuf => rw [runningPlan, s.sweep_ok hl]; exact ⟨_, rfl⟩
  | push b =>
    rw [runningPlan]
    split
    case isTrue => exact ⟨_, rfl⟩
    case isFalse hne => exact planAppend_ok [] (Nat.lt_of_le_of_ne hl hne)
  | appcrc =>
    rw [runningPlan]
    split
    case isTrue => exact ⟨_, rfl⟩
    case isFalse hle =>
      rw [s.sweep_ok hl]
      exact planAppend_ok _ (Nat.add_le_add_right (not_lt.mp hle) 2)
  | chk =>
    rw [runningPlan]
    split
    case isTrue => exact ⟨_, rfl⟩
    case isFalse hge =>
      obtain ⟨c, hc⟩ := readChecksums_ok hl (not_lt.mp hge)
      rw [hc]
      exact ⟨_, rfl⟩
  | fltFb =>
    rw [runningPlan, s.loadByte_ok (by decide)]
    split
    · split <;> exact ⟨_, rfl⟩
    · exact ⟨_, rfl⟩
  | crcInit | crcByte | bldReq | bldRsp | clr | flt | setid | setcfg => exact ⟨_, rfl⟩

/-- With LEN above 256 exactly CRC.BUF, PUSH and CHK meet an access beyond the buffer: APPCRC answers OVERFLOW,
FLT.FB reads `FB[0]`, and the others read no byte and write at the fixed offsets 0..5 at most. -/
theorem runningPlan_error_iff (hl : 256 < s.len.toNat) :
    runningPlan i s = .error .noSuchFrameByte ↔ i.mnemonic ∈ ["CRC.BUF", "PUSH", "CHK"] := by
  cases i with
  | crcBuf => rw [runningPlan, s.sweep_error hl]; exact iff_of_true rfl (by decide)
  | push b =>
    rw [runningPlan, if_neg hl.ne', planAppend_error [] (Nat.lt_add_right _ hl)]
    exact iff_of_true rfl (by simp [Instr.mnemonic])
  | chk =>
    rw [runningPlan, if_neg (by omega : ¬ s.len.toNat < 2), readChecksums_error hl]
    exact iff_of_true rfl (by decide)
  | appcrc => rw [runningPlan, if_pos (by omega : 256 - 2 < s.len.toNat)]; exact iff_of_false nofun (by decide)
  | fltFb =>
    rw [runningPlan, s.loadByte_ok (by decide), if_neg (by omega : ¬ s.len.toNat = 0)]
    refine iff_of_false ?_ (by decide)
    split <;> exact nofun
  | crcInit | crcByte | bldReq | bldRsp | clr | flt | setid | setcfg =>
    exact iff_of_false nofun (by simp [Instr.mnemonic])

theorem plan_error_iff (i : Instr) (s : State) :
    plan i s = .error .noSuchFrameByte ↔
      s.halt = false ∧ 256 < s.len.toNat ∧ i.mnemonic ∈ ["CRC.BUF", "PUSH", "CHK"] := by
  cases hh : s.halt with
  | true => simp [plan, hh]
  | false =>
    simp only [plan, hh, Bool.false_eq_true, if_false, true_and]
    by_cases hl : s.len.toNat ≤ 256
    · obtain ⟨p, hp⟩ := runningPlan_ok i hl
      simp [hp, hl]
    · rw [runningPlan_error_iff (by omega), and_iff_right (by omega)]

theorem exec_ne_refused (i : Instr) (s : State) (r : Refusal) : exec i s ≠ .refused r := by
  rw [exec_eq_plan]
  cases plan i s <;> exact nofun

/-- A command faults exactly when its reads determine no plan. -/
theorem exec_eq_fault_iff {f : Fault} : exec i s = .fault f ↔ plan i s = .error f := by
  rw [exec_eq_plan]
  cases plan i s <;> simp

/-- Settles O13: a command stops exactly when its reads determine no plan, which takes LEN above 256 and one of the
three commands. -/
theorem faultsAreExactlyLenOutOfRange : Obligations.FaultsAreExactlyLenOutOfRange := by
  refine fun i s => ⟨exec_ne_refused i s, fun f => ?_⟩
  obtain rfl := f.eq_noSuchFrameByte
  rw [exec_eq_fault_iff, plan_error_iff, and_iff_right rfl]

end Sys2Proof.Machine

/-! # Stale bytes: noninterference of the buffer above LEN (R31) -/

namespace Sys2Proof.Machine

variable {i : Instr} {s : State} {m : Memory}

/-- The buffer `m` holds the current frame of `s`: the same bytes below LEN, whatever stands above it. -/
def HoldsFrame (s : State) (m : Memory) : Prop :=
  ∀ a, a < s.len.toNat → State.fbByte { s with fb := m } a = s.fbByte a

theorem loadByte_of_holdsFrame (h : HoldsFrame s m) {a : Nat} (ha : a < s.len.toNat) :
    State.loadByte { s with fb := m } a = s.loadByte a := by
  rw [State.loadByte, h a ha, State.loadByte]

theorem sweep_of_holdsFrame (h : HoldsFrame s m) {n : Nat} (hn : n ≤ s.len.toNat) :
    State.sweep { s with fb := m } n = s.sweep n := by
  have hbytes : (List.range n).map (State.fbByte { s with fb := m }) = (List.range n).map s.fbByte :=
    List.map_congr_left fun a ha => h a ((List.mem_range.mp ha).trans_le hn)
  rw [State.sweep, hbytes, State.sweep]

theorem readChecksums_of_holdsFrame (h : HoldsFrame s m) (hl : 2 ≤ s.len.toNat) :
    readChecksums { s with fb := m } = readChecksums s := by
  rw [readChecksums, loadByte_of_holdsFrame h (Nat.sub_lt_self (by decide) hl),
    loadByte_of_holdsFrame h (Nat.sub_one_lt (by omega)), sweep_of_holdsFrame h (Nat.sub_le _ _), readChecksums]

/-- Four commands read the buffer to find their plan, each below LEN. -/
theorem runningPlan_of_holdsFrame (h : HoldsFrame s m) :
    runningPlan i { s with fb := m } = runningPlan i s := by
  cases i with
  | crcBuf => rw [runningPlan, sweep_of_holdsFrame h le_rfl, runningPlan]
  | appcrc => rw [runningPlan, sweep_of_holdsFrame h le_rfl]; rfl
  | chk =>
    by_cases hl : s.len.toNat < 2
    · exact (if_pos hl).trans (if_pos hl).symm
    · simp only [runningPlan, if_neg hl, readChecksums_of_holdsFrame h (not_lt.mp hl)]
      rfl
  | fltFb =>
    by_cases hl : s.len.toNat = 0
    · simp only [runningPlan, if_pos hl]
    · simp only [runningPlan, if_neg hl, loadByte_of_holdsFrame h (Nat.pos_of_ne_zero hl)]
  | crcInit | crcByte | bldReq | bldRsp | push | clr | flt | setid | setcfg => rfl

theorem plan_of_holdsFrame (h : HoldsFrame s m) : plan i { s with fb := m } = plan i s := by
  rw [plan, runningPlan_of_holdsFrame h, plan]

def copyBuffer (v u : State) : State := { u with fb := v.fb }

theorem copies_buffer : Copies copyBuffer := ⟨fun w _ _ => by cases w <;> rfl, fun _ _ _ => rfl⟩

/-- A write gives a byte one value from every state, or keeps it in every state. -/
theorem Write.fbByte_apply (w : Write) (a : Nat) :
    (∃ b, ∀ u, (w.apply u).fbByte a = b) ∨ ∀ u, (w.apply u).fbByte a = u.fbByte a := by
  cases w with
  | bytes first bs =>
    by_cases ha : first ≤ a ∧ a < first + bs.length
    · exact .inl ⟨_, fun u => (u.fbByte_writeBytes first a bs).trans (dif_pos ha)⟩
    · exact .inr fun u => (u.fbByte_writeBytes first a bs).trans (dif_neg ha)
  | len | acc | ident | recoveryEn | diagnostics | halt => exact .inr fun _ => rfl

theorem fbByte_applyAll (ws : List Write) (a : Nat) :
    (∃ b, ∀ u, (applyAll ws u).fbByte a = b) ∨ ∀ u, (applyAll ws u).fbByte a = u.fbByte a := by
  induction ws with
  | nil => exact .inr fun _ => rfl
  | cons w ws ih =>
    rcases ih with ⟨b, hb⟩ | hkeep
    · exact .inl ⟨b, fun u => hb (w.apply u)⟩
    · simpa only [applyAll_cons, hkeep] using w.fbByte_apply a

/-- Settles O21: the plan is found below LEN, and carrying it out writes the same bytes whatever the buffer. -/
theorem staleBytesReachNoCommand : Obligations.StaleBytesReachNoCommand := by
  intro i s t m h hm
  obtain ⟨p, hp, rfl⟩ := exec_eq_next_iff.mp h
  refine ⟨p.run { s with fb := m }, exec_eq_next_iff.mpr ⟨p, (plan_of_holdsFrame hm).trans hp, rfl⟩,
    copies_buffer.run p s { s with fb := m }, fun a => ?_⟩
  rcases fbByte_applyAll p.writes a with ⟨b, hb⟩ | hkeep
  · exact .inl ((hb _).trans (hb s).symm)
  · exact .inr ⟨hkeep _, hkeep s⟩

end Sys2Proof.Machine

/-! # The encoding: fields, rows and masks (R46 to R51)

A row of the opcode map accepts fields that have its opcode and are zero outside the operands of its format. The
decoder, the encoder and the match and mask columns of R49 all say this of a word's fields, and are compared
there. -/

namespace Sys2Proof

/-! ### The formats (R47) -/

/-- R47's picture of a format: the operand fields as they are, every other field zero. -/
def Format.keepOperands (m : Format) (f : Fields) : Fields :=
  match m with
  | .Z => ⟨f.op, 0, 0, 0, 0, 0⟩
  | .B => ⟨f.op, f.a, 0, 0, 0, 0⟩
  | .C => ⟨f.op, if f.a.getLsbD 0 then 0x01#8 else 0x00#8, 0, 0, 0, 0⟩
  | .I => ⟨f.op, 0, 0, f.addr, 0, 0⟩
  | .P => ⟨f.op, f.a, f.fc, 0, 0, 0⟩
  | .Q => ⟨f.op, f.a, f.fc, f.addr, f.cnt, 0⟩

/-- A byte whose bits 7:1 are zero is its bit 0 (R48, the operand `en`). -/
theorem byte_upper_eq_zero_iff :
    ∀ a : Byte, a.extractLsb' 1 7 = 0#7 ↔ a = if a.getLsbD 0 then 0x01#8 else 0x00#8 := by decide

theorem Format.reservedZero_iff (m : Format) (f : Fields) :
    m.reservedZero f = true ↔ f = m.keepOperands f := by
  obtain ⟨op, a, fc, addr, cnt, rsv⟩ := f
  cases m <;>
    simp only [Format.reservedZero, Format.keepOperands, Bool.and_eq_true, decide_eq_true_eq, Fields.mk.injEq,
      byte_upper_eq_zero_iff, BitVec.ofNat_eq_ofNat, and_assoc, true_and]

/-! ### The opcode map (R49) -/

variable {r r' : OpRow} {f : Fields} {i : Instr} {w : Word64}

theorem opcodeMap_ops : opcodeMap.map OpRow.op = Claims.assignedOpcodes := rfl

theorem assignedOpcodes_nodup : Claims.assignedOpcodes.Nodup := by decide

theorem mem_assignedOpcodes_iff {op : Byte} : op ∈ Claims.assignedOpcodes ↔ ∃ r ∈ opcodeMap, r.op = op := by
  rw [← opcodeMap_ops, List.mem_map]

/-- The thirteen opcodes differ. -/
theorem OpRow.eq_of_op_eq (hr : r ∈ opcodeMap) (hr' : r' ∈ opcodeMap) (h : r.op = r'.op) : r = r' :=
  List.inj_on_of_nodup_map (opcodeMap_ops ▸ assignedOpcodes_nodup) hr hr' h

/-- The row accepts the fields: they have its opcode, and its reserved fields are zero (R47, R49). -/
def OpRow.Accepts (r : OpRow) (f : Fields) : Prop := r.op = f.op ∧ r.format.reservedZero f = true

/-! ### The decoder by rows (R50) -/

theorem find_opcodeMap (hr : r ∈ opcodeMap) (hop : r.op = f.op) :
    opcodeMap.find? (fun r => r.op = f.op) = some r := by
  obtain ⟨r', hr'⟩ := Option.isSome_iff_exists.mp
    (List.find?_isSome.mpr ⟨r, hr, decide_eq_true hop⟩ : (opcodeMap.find? fun r => r.op = f.op).isSome = true)
  have hop' : r'.op = f.op := of_decide_eq_true (List.find?_some (p := fun r : OpRow => decide (r.op = f.op)) hr')
  rw [hr', OpRow.eq_of_op_eq (List.mem_of_find?_eq_some hr') hr (hop'.trans hop.symm)]

theorem decodeFields_of_op_eq (hr : r ∈ opcodeMap) (hop : r.op = f.op) :
    decodeFields f =
      if r.format.reservedZero f then .command (r.command f) else .illegal .reservedField := by
  rw [decodeFields, find_opcodeMap hr hop]

theorem decodeFields_of_unassigned (h : f.op ∉ Claims.assignedOpcodes) :
    decodeFields f = .illegal .unassignedOpcode := by
  have hnone : opcodeMap.find? (fun r => r.op = f.op) = none :=
    List.find?_eq_none.mpr fun r hr hop => h (mem_assignedOpcodes_iff.mpr ⟨r, hr, of_decide_eq_true hop⟩)
  rw [decodeFields, hnone]

theorem decodeFields_eq_command_iff :
    decodeFields f = .command i ↔ ∃ r ∈ opcodeMap, r.Accepts f ∧ r.command f = i := by
  constructor
  · intro h
    by_cases hf : f.op ∈ Claims.assignedOpcodes
    · obtain ⟨r, hr, hop⟩ := mem_assignedOpcodes_iff.mp hf
      rw [decodeFields_of_op_eq hr hop] at h
      split at h
      case isTrue hz => exact ⟨r, hr, ⟨hop, hz⟩, Decoded.command.inj h⟩
      case isFalse => nomatch h
    · rw [decodeFields_of_unassigned hf] at h
      nomatch h
  · rintro ⟨r, hr, ⟨hop, hz⟩, rfl⟩
    rw [decodeFields_of_op_eq hr hop, if_pos hz]

theorem decodeFields_eq_unassigned_iff :
    decodeFields f = .illegal .unassignedOpcode ↔ f.op ∉ Claims.assignedOpcodes := by
  refine ⟨fun h hf => ?_, decodeFields_of_unassigned⟩
  obtain ⟨r, hr, hop⟩ := mem_assignedOpcodes_iff.mp hf
  rw [decodeFields_of_op_eq hr hop] at h
  split at h <;> nomatch h

/-! ### Decode and encode are inverse (R48) -/

/-- A candidate that fits the field is what the field denotes. -/
theorem toInt_ofInt_of_candidateFits {c : Int} (h : candidateFits c = true) :
    (BitVec.ofInt 16 c).toInt = c := by
  simp only [candidateFits, Bool.and_eq_true, decide_eq_true_eq] at h
  obtain ⟨hmin, hmax⟩ := h
  exact BitVec.toInt_ofInt_eq_self (by decide) hmin (by omega)

/-- What the field denotes is a candidate that fits it. -/
theorem candidateFits_toInt (v : Word16) : candidateFits v.toInt = true := by
  have hmin := v.le_toInt
  have hmax := v.toInt_lt
  simp only [candidateFits, Bool.and_eq_true, decide_eq_true_eq]
  omega

theorem decodeFields_fields (h : i.wellFormed = true) : decodeFields i.fields = .command i := by
  cases i with
  | setid c => exact congrArg (fun c => Decoded.command (.setid c)) (toInt_ofInt_of_candidateFits h)
  | setcfg en => cases en <;> rfl
  | crcBuf | crcInit | crcByte | bldReq | bldRsp | push | appcrc | clr | chk | flt | fltFb => rfl

/-- Settles O1: the word's fields are the command's, and its row reads the operands back from them. -/
theorem decodeOfEncodeIsTheCommand : Obligations.DecodeOfEncodeIsTheCommand := fun i h =>
  (decode_encode_fields i).trans (decodeFields_fields h)

/-- Row by row: the command that a row reads from fields puts each operand back where it was read. -/
theorem fields_command : ∀ r ∈ opcodeMap, ∀ f : Fields,
    (r.command f).fields = { r.format.keepOperands f with op := r.op } := by
  simp [opcodeMap, Instr.fields, Format.keepOperands]

theorem wellFormed_command : ∀ r ∈ opcodeMap, ∀ f : Fields, (r.command f).wellFormed = true := by
  simp [opcodeMap, Instr.wellFormed, candidateFits_toInt]

theorem fields_command_of_accepts (hr : r ∈ opcodeMap) (h : r.Accepts f) : (r.command f).fields = f := by
  obtain ⟨hop, hz⟩ := h
  have hop' : r.op = (r.format.keepOperands f).op := by rw [← (r.format.reservedZero_iff f).mp hz, hop]
  rw [fields_command r hr f, hop']
  exact ((r.format.reservedZero_iff f).mp hz).symm

/-- Settles O2: nothing of the word's fields is lost, since the row that reads them found the reserved ones zero. -/
theorem decodedWordIsTheOnlySpelling : Obligations.DecodedWordIsTheOnlySpelling := by
  intro w i h
  obtain ⟨r, hr, hacc, rfl⟩ := decodeFields_eq_command_iff.mp h
  refine ⟨?_, wellFormed_command r hr _⟩
  rw [encode, fields_command_of_accepts hr hacc, Fields.toWord_ofWord]

/-! ### The match and mask columns (R49) -/

/-- Masking by fields. -/
def Fields.land (f g : Fields) : Fields :=
  ⟨f.op &&& g.op, f.a &&& g.a, f.fc &&& g.fc, f.addr &&& g.addr, f.cnt &&& g.cnt, f.rsv &&& g.rsv⟩

theorem Fields.ofWord_and (v w : Word64) : Fields.ofWord (v &&& w) = (Fields.ofWord v).land (Fields.ofWord w) := by
  simp only [Fields.ofWord, Fields.land, BitVec.extractLsb'_and]

theorem Fields.ofWord_injective : Function.Injective Fields.ofWord :=
  Function.LeftInverse.injective Fields.toWord_ofWord

/-- The mask of a format: ones in `op` and in every bit that the format requires to be zero. -/
def Format.mask : Format → Fields
  | .Z => ⟨.allOnes 8, .allOnes 8, .allOnes 8, .allOnes 16, .allOnes 16, .allOnes 8⟩
  | .B => ⟨.allOnes 8, 0, .allOnes 8, .allOnes 16, .allOnes 16, .allOnes 8⟩
  | .C => ⟨.allOnes 8, 0xFE, .allOnes 8, .allOnes 16, .allOnes 16, .allOnes 8⟩
  | .I => ⟨.allOnes 8, .allOnes 8, .allOnes 8, 0, .allOnes 16, .allOnes 8⟩
  | .P => ⟨.allOnes 8, 0, 0, .allOnes 16, .allOnes 16, .allOnes 8⟩
  | .Q => ⟨.allOnes 8, 0, 0, 0, 0, .allOnes 8⟩

/-- The fields of a row's match: the opcode alone. -/
def OpRow.pattern (r : OpRow) : Fields := ⟨r.op, 0, 0, 0, 0, 0⟩

/-- The mask 0xFE keeps the bits 7:1 of a byte (the row of SETCFG). -/
theorem byte_and_upper_eq_zero_iff : ∀ a : Byte, a &&& 0xFE#8 = 0#8 ↔ a.extractLsb' 1 7 = 0#7 := by decide

theorem land_mask_eq_pattern_iff (r : OpRow) (f : Fields) : f.land r.format.mask = r.pattern ↔ r.Accepts f := by
  obtain ⟨op, m, command⟩ := r
  cases m <;>
    simp only [Fields.land, Format.mask, OpRow.pattern, OpRow.Accepts, Format.reservedZero, Fields.mk.injEq,
      BitVec.and_allOnes, BitVec.ofNat_eq_ofNat, BitVec.and_zero, byte_and_upper_eq_zero_iff, Bool.and_eq_true,
      decide_eq_true_eq, and_assoc, true_and, eq_comm (a := op)]

/-- The row of R49's last columns that a row of the opcode map has by its opcode and format. -/
def OpRow.maskRow (r : OpRow) : MaskRow :=
  ⟨(r.command r.pattern).mnemonic, r.pattern.toWord, r.format.mask.toWord⟩

/-- The columns as R49 prints them are those of the opcode map. -/
theorem maskTable_eq : maskTable = opcodeMap.map OpRow.maskRow := by decide

theorem mem_maskTable_iff {row : MaskRow} : row ∈ maskTable ↔ ∃ r ∈ opcodeMap, r.maskRow = row := by
  rw [maskTable_eq, List.mem_map]

theorem mnemonic_command : ∀ r ∈ opcodeMap, ∀ f : Fields, (r.command f).mnemonic = r.maskRow.mnemonic := by
  simp [opcodeMap, OpRow.maskRow, Instr.mnemonic]

/-- A word matches a row of R49 exactly when the opcode map's row accepts its fields. -/
theorem and_mask_eq_iff (r : OpRow) (w : Word64) :
    w &&& r.maskRow.mask = r.maskRow.pattern ↔ r.Accepts (Fields.ofWord w) := by
  rw [← land_mask_eq_pattern_iff, ← Fields.ofWord_injective.eq_iff, Fields.ofWord_and]
  simp only [OpRow.maskRow, Fields.ofWord_toWord]

theorem exists_row_of_decode (h : decode w = .command i) :
    ∃ row ∈ maskTable, row.mnemonic = i.mnemonic ∧ w &&& row.mask = row.pattern := by
  obtain ⟨r, hr, hacc, rfl⟩ := decodeFields_eq_command_iff.mp h
  exact ⟨r.maskRow, mem_maskTable_iff.mpr ⟨r, hr, rfl⟩, (mnemonic_command r hr _).symm,
    (and_mask_eq_iff r w).mpr hacc⟩

theorem exists_decode_of_row {row : MaskRow} (hrow : row ∈ maskTable) (h : w &&& row.mask = row.pattern) :
    ∃ i, decode w = .command i ∧ i.mnemonic = row.mnemonic := by
  obtain ⟨r, hr, rfl⟩ := mem_maskTable_iff.mp hrow
  exact ⟨_, decodeFields_eq_command_iff.mpr ⟨r, hr, (and_mask_eq_iff r w).mp h, rfl⟩, mnemonic_command r hr _⟩

/-- Two rows that one word matches have its opcode, and the opcodes differ. -/
theorem row_unique {row row' : MaskRow} (hrow : row ∈ maskTable) (hrow' : row' ∈ maskTable)
    (h : w &&& row.mask = row.pattern) (h' : w &&& row'.mask = row'.pattern) : row = row' := by
  obtain ⟨r, hr, rfl⟩ := mem_maskTable_iff.mp hrow
  obtain ⟨r', hr', rfl⟩ := mem_maskTable_iff.mp hrow'
  have hop := ((and_mask_eq_iff r w).mp h).1
  have hop' := ((and_mask_eq_iff r' w).mp h').1
  rw [OpRow.eq_of_op_eq hr hr' (hop.trans hop'.symm)]

/-- Settles O3: a row's match and mask accept the same words as its opcode and format. -/
theorem decoderIsTheMatchAndMaskTable : Obligations.DecoderIsTheMatchAndMaskTable :=
  ⟨fun _ _ => exists_row_of_decode, fun _ _ => exists_decode_of_row, fun _ _ _ => row_unique⟩

/-! ### The illegal words (R51) -/

theorem decode_eq_unassigned_iff (w : Word64) :
    decode w = .illegal .unassignedOpcode ↔ w.extractLsb' 56 8 ∉ Claims.assignedOpcodes :=
  decodeFields_eq_unassigned_iff

theorem exists_decode_iff : (∃ i, decode w = .command i) ↔ ∃ row ∈ maskTable, w &&& row.mask = row.pattern := by
  constructor
  · rintro ⟨i, h⟩
    obtain ⟨row, hrow, -, hmatch⟩ := exists_row_of_decode h
    exact ⟨row, hrow, hmatch⟩
  · rintro ⟨row, hrow, hmatch⟩
    obtain ⟨i, h, -⟩ := exists_decode_of_row hrow hmatch
    exact ⟨i, h⟩

/-- The second kind is what the first kind and the commands leave. -/
theorem Decoded.eq_reservedField_iff (d : Decoded) :
    d = .illegal .reservedField ↔ d ≠ .illegal .unassignedOpcode ∧ ¬ ∃ i, d = .command i := by
  cases d with
  | command i => simp
  | illegal why => cases why <;> simp

theorem decode_eq_reservedField_iff (w : Word64) :
    decode w = .illegal .reservedField ↔
      w.extractLsb' 56 8 ∈ Claims.assignedOpcodes ∧ ∀ row ∈ maskTable, w &&& row.mask ≠ row.pattern := by
  rw [Decoded.eq_reservedField_iff, Ne, decode_eq_unassigned_iff, not_not, exists_decode_iff]
  simp only [not_exists, not_and, ne_eq]

theorem unassigned_count :
    ((List.range 256).filter fun n => BitVec.ofNat 8 n ∉ Claims.assignedOpcodes).length = 243 := by
  decide +kernel

/-- Settles O4: the decoder's answers by the opcode, and by the rows of R49 when the opcode is assigned. -/
theorem illegalWordsAreOfTwoKinds : Obligations.IllegalWordsAreOfTwoKinds :=
  ⟨decode_eq_unassigned_iff, decode_eq_reservedField_iff, unassigned_count,
    (decode_eq_unassigned_iff _).mpr (by decide), (decode_eq_unassigned_iff _).mpr (by decide)⟩

end Sys2Proof

namespace Sys2Proof.Machine

/-! ### The textual syntax (R54, R55) -/

/-- The commands of six lines; FRAME.REQ is its expansion (R55). -/
theorem assembleLine_commands :
    assembleLine "BLD.REQ 17, 3, 0x0013, 0x0002".toList = .ok [.bldReq 17 3 0x0013 0x0002] ∧
    assembleLine "BLD.RSP 17, 3 ; a response".toList = .ok [.bldRsp 17 3] ∧
    assembleLine "SETID -1".toList = .ok [.setid (-1)] ∧
    assembleLine "SETCFG 1".toList = .ok [.setcfg true] ∧
    assembleLine "FLT.FB".toList = .ok [.fltFb] ∧
    assembleLine "FRAME.REQ 17, 3, 0x0013, 0x0002".toList = .ok (Pseudo.frameReq 17 3 0x0013 0x0002).expand := by
  decide +kernel

/-- Operands beyond their field above, and one below an unsigned field (log 8). -/
theorem assembleLine_doesNotFit :
    assembleLine "PUSH 256".toList = .error .doesNotFit ∧
    assembleLine "PUSH -1".toList = .error .doesNotFit ∧
    assembleLine "SETID 40000".toList = .error .doesNotFit := by
  decide +kernel

/-- Settles O6: the lines are the commands that the words spell. -/
theorem assemblyLinesGiveTheWords : Obligations.AssemblyLinesGiveTheWords := by
  obtain ⟨hbldReq, hbldRsp, hsetid, hsetcfg, hfltFb, hframeReq⟩ := assembleLine_commands
  rw [Obligations.AssemblyLinesGiveTheWords, hbldReq, hbldRsp, hsetid, hsetcfg, hfltFb, hframeReq]
  exact ⟨rfl, rfl, rfl, rfl, rfl, rfl, assembleLine_doesNotFit⟩

end Sys2Proof.Machine

/-! # A step on a presented word: completion and the response (R56, R120, R127) -/

namespace Sys2Proof.Machine

variable {i : Instr} {s : State} {w : Word64}

/-- A word that decodes to a command is that command (R50, R56). -/
theorem acceptWord_of_command (hd : decode w = .command i) : acceptWord w s = exec i s := by
  rw [acceptWord, hd]

theorem acceptWord_of_illegal {why : Illegal} (hd : decode w = .illegal why) : acceptWord w s = execIllegal s := by
  rw [acceptWord, hd]

/-- Settles O7: the step accepts the word, and an accepted word is the command that it decodes to. -/
theorem stepRunsThePresentedCommand : Obligations.StepRunsThePresentedCommand := fun _ _ _ _ hin hd =>
  (step_word hin).trans (acceptWord_of_command hd)

/-- With LEN in range every command has a plan, on a halted machine too (R32, R126). -/
theorem plan_ok (i : Instr) (hl : s.lenInRange) : ∃ p, plan i s = .ok p := by
  unfold plan
  split
  · exact ⟨_, rfl⟩
  · exact runningPlan_ok i hl

theorem exec_responds (i : Instr) (hl : s.lenInRange) : ∃ t r, exec i s = .next t ∧ t.rsp = some r := by
  obtain ⟨p, hp⟩ := plan_ok i hl
  exact ⟨p.run s, p.rsp, exec_eq_next_iff.mpr ⟨p, hp, rfl⟩, rfl⟩

theorem execIllegal_responds (s : State) : ∃ t r, execIllegal s = .next t ∧ t.rsp = some r := by
  unfold execIllegal
  cases hh : s.halt with
  | true => exact ⟨_, _, s.unlessHalted_halted _ hh, rfl⟩
  | false => exact ⟨_, _, s.unlessHalted_running _ hh, rfl⟩

/-- With LEN in range every accepted word, legal or not, is answered (R56, R120). -/
theorem acceptWord_responds (w : Word64) (hl : s.lenInRange) :
    ∃ t r, acceptWord w s = .next t ∧ t.rsp = some r := by
  cases hd : decode w with
  | command i => rw [acceptWord_of_command hd]; exact exec_responds i hl
  | illegal why => rw [acceptWord_of_illegal hd]; exact execIllegal_responds s

/-- Settles O12: an idle step and a reset leave no response, and an accepted word is answered with one. -/
theorem everyStepCompletes : Obligations.EveryStepCompletes := by
  intro s hl
  match hin : s.inputs with
  | [] => exact ⟨_, step_idle hin, iff_of_false nofun nofun⟩
  | .reset :: rest => exact ⟨_, step_reset hin, iff_of_false nofun nofun⟩
  | .command w :: rest =>
    obtain ⟨t, r, ht, hr⟩ := acceptWord_responds (s := { s with inputs := rest }) w hl
    exact ⟨t, (step_word hin).trans ht, iff_of_true (hr ▸ rfl) ⟨w, rest, rfl⟩⟩

end Sys2Proof.Machine

/-! # Unwritten bytes: noninterference of the reset contents (R56, R141)

A byte that was written since reset reads the same under every draw. Commands read below LEN alone, where the
invariant says that every byte was written. -/

namespace Sys2Proof.Machine

variable {i : Instr} {s : State}

theorem fbByte_resets {a : Nat} (h : (s.fb.read a).isSome = true) (n : Nat) :
    State.fbByte { s with resets := n } a = s.fbByte a := by
  obtain ⟨b, hb⟩ := Option.isSome_iff_exists.mp h
  simp only [State.fbByte, hb]

theorem loadByte_resets (h : s.frameWritten) {a : Nat} (ha : a < s.len.toNat) (n : Nat) :
    State.loadByte { s with resets := n } a = s.loadByte a := by
  rw [State.loadByte, fbByte_resets (h a ha), State.loadByte]

theorem sweep_resets (h : s.frameWritten) {k : Nat} (hk : k ≤ s.len.toNat) (n : Nat) :
    State.sweep { s with resets := n } k = s.sweep k := by
  have hbytes : (List.range k).map (State.fbByte { s with resets := n }) = (List.range k).map s.fbByte :=
    List.map_congr_left fun a ha => fbByte_resets (h a ((List.mem_range.mp ha).trans_le hk)) n
  rw [State.sweep, hbytes, State.sweep]

theorem readChecksums_resets (h : s.frameWritten) (hl : 2 ≤ s.len.toNat) (n : Nat) :
    readChecksums { s with resets := n } = readChecksums s := by
  rw [readChecksums, loadByte_resets h (Nat.sub_lt_self (by decide) hl),
    loadByte_resets h (Nat.sub_one_lt (by omega)), sweep_resets h (Nat.sub_le _ _), readChecksums]

/-- The four commands that read the buffer find the same plan under every draw. -/
theorem runningPlan_resets (h : s.frameWritten) (n : Nat) :
    runningPlan i { s with resets := n } = runningPlan i s := by
  cases i with
  | crcBuf => rw [runningPlan, sweep_resets h le_rfl, runningPlan]
  | appcrc => rw [runningPlan, sweep_resets h le_rfl]; rfl
  | chk =>
    by_cases hl : s.len.toNat < 2
    · exact (if_pos hl).trans (if_pos hl).symm
    · simp only [runningPlan, if_neg hl, readChecksums_resets h (not_lt.mp hl)]
      rfl
  | fltFb =>
    by_cases hl : s.len.toNat = 0
    · simp only [runningPlan, if_pos hl]
    · simp only [runningPlan, if_neg hl, loadByte_resets h (Nat.pos_of_ne_zero hl)]
  | crcInit | crcByte | bldReq | bldRsp | push | clr | flt | setid | setcfg => rfl

theorem plan_resets (h : s.frameWritten) (n : Nat) : plan i { s with resets := n } = plan i s := by
  rw [plan, runningPlan_resets h, plan]

/-- The draw with index `n`, whatever the first state. -/
def redraw (n : Nat) (_ u : State) : State := { u with resets := n }

theorem copies_redraw (n : Nat) : Copies (redraw n) := ⟨fun w _ _ => by cases w <;> rfl, fun _ _ _ => rfl⟩

/-- No write of a plan reads or changes the index of the draw. -/
theorem Plan.run_resets (p : Plan) (s : State) (n : Nat) :
    p.run { s with resets := n } = { p.run s with resets := n } :=
  ((copies_redraw n).run p s s).symm

/-- Settles O23: the plan is found in bytes that were written, and carrying it out leaves the draw alone. -/
theorem unwrittenBytesReachNoCommand : Obligations.UnwrittenBytesReachNoCommand := by
  intro i s t n hinv h
  obtain ⟨p, hp, rfl⟩ := exec_eq_next_iff.mp h
  exact exec_eq_next_iff.mpr ⟨p, (plan_resets hinv.frameWritten n).trans hp, p.run_resets s n⟩

end Sys2Proof.Machine

/-! # The checksum function (R60 to R64, R68) -/

namespace Sys2Proof.Machine

/-! ### The tables (R61) -/

theorem tableHi_eq_printed :
    (List.range 256).map (fun n => (tableHi (BitVec.ofNat 8 n)).toNat) = Claims.printedTableHi := by
  decide +kernel

theorem tableLo_eq_printed :
    (List.range 256).map (fun n => (tableLo (BitVec.ofNat 8 n)).toNat) = Claims.printedTableLo := by
  decide +kernel

theorem printedTables_sum : Claims.printedTableHi.sum = 24704 ∧ Claims.printedTableLo.sum = 32640 := by
  decide +kernel

/-- With its 256 entries below 256, this makes TABLE_LO a permutation. -/
theorem printedTableLo_nodup : Claims.printedTableLo.Nodup := by decide +kernel

theorem printedTableHi_values :
    (∀ n ∈ Claims.printedTableHi, n ∈ [0x00, 0x01, 0x40, 0x41, 0x80, 0x81, 0xC0, 0xC1]) ∧
    (∀ n ∈ [0x00, 0x01, 0x40, 0x41, 0x80, 0x81, 0xC0, 0xC1], n ∈ Claims.printedTableHi) := by
  decide +kernel

theorem crcT_spotChecks :
    crcT 1#8 = 0xC0C1#16 ∧ crcT 2#8 = 0xC181#16 ∧ crcT 0x80#8 = 0xA001#16 ∧ crcT 0xFF#8 = 0x4040#16 := by
  decide

/-- Settles O48: the tables by evaluating all 512 entries, the rest by looking at the printed ones. -/
theorem generatedTablesAreThePrintedOnes : Obligations.GeneratedTablesAreThePrintedOnes :=
  ⟨tableHi_eq_printed, tableLo_eq_printed, printedTables_sum.1, printedTables_sum.2, printedTableLo_nodup,
    printedTableHi_values.1, printedTableHi_values.2, crcT_spotChecks⟩

theorem tableLo_injective : Function.Injective tableLo := by
  have hnodup := tableLo_eq_printed ▸ printedTableLo_nodup
  intro i j h
  have hij := List.inj_on_of_nodup_map hnodup (List.mem_range.mpr i.isLt) (List.mem_range.mpr j.isLt)
    (by simpa using congrArg BitVec.toNat h)
  exact BitVec.eq_of_toNat_eq hij

/-! ### The bitwise form is linear over exclusive-or (R60, R64) -/

/-- What a shift step adds for the bit that it shifts out. -/
def crcFeedback (out : Bool) : Word16 := if out then Config.crcPoly else 0#16

theorem crcFeedback_xor : ∀ a b : Bool, crcFeedback (a ^^ b) = crcFeedback a ^^^ crcFeedback b := by decide

theorem crcShift_eq (r : Word16) : crcShift r = r >>> 1 ^^^ crcFeedback (r.getLsbD 0) := by
  unfold crcShift crcFeedback
  split
  · rfl
  · exact BitVec.xor_zero.symm

theorem crcShift_xor (q r : Word16) : crcShift (q ^^^ r) = crcShift q ^^^ crcShift r := by
  simp only [crcShift_eq, BitVec.ushiftRight_xor_distrib, BitVec.getLsbD_xor, crcFeedback_xor]
  ac_rfl

theorem crcShifts_xor (n : Nat) (q r : Word16) : crcShifts n (q ^^^ r) = crcShifts n q ^^^ crcShifts n r := by
  induction n generalizing q r with
  | zero => rfl
  | succ n ih => simp only [crcShifts, crcShift_xor, ih]

/-- Bits that are 0 are shifted out without a trace of the polynomial. -/
theorem crcShifts_of_low_zero {n : Nat} {r : Word16} (h : ∀ k < n, r.getLsbD k = false) :
    crcShifts n r = r >>> n := by
  induction n generalizing r with
  | zero => exact (BitVec.ushiftRight_zero r).symm
  | succ n ih =>
    have hshift : crcShift r = r >>> 1 := if_neg (by rw [h 0 n.succ_pos]; decide)
    have hlow (k : Nat) (hk : k < n) : (r >>> 1).getLsbD k = false := by
      rw [BitVec.getLsbD_ushiftRight]
      exact h (1 + k) (by omega)
    rw [crcShifts, hshift, ih hlow, ← BitVec.shiftRight_add, Nat.add_comm]

/-! ### The two forms agree (R64) -/

theorem joinBytes_xor (a b c d : Byte) :
    joinBytes a b ^^^ joinBytes c d = joinBytes (a ^^^ c) (b ^^^ d) :=
  BitVec.xor_append

theorem setWidth_eq_joinBytes (b : Byte) : b.setWidth 16 = joinBytes 0#8 b :=
  BitVec.setWidth_eq_append (by decide)

theorem crcT_eq_crcShifts (i : Byte) : crcT i = crcShifts 8 (joinBytes 0#8 i) := by
  rw [crcT, setWidth_eq_joinBytes]

/-- The high byte of the register is merely shifted down. -/
theorem crcShifts_high (hi : Byte) : crcShifts 8 (joinBytes hi 0#8) = joinBytes 0#8 hi := by
  rw [crcShifts_of_low_zero fun k hk => ?_, BitVec.ushiftRight_eq_extractLsb'_of_lt (by decide)]
  · exact congrArg (joinBytes 0#8) (hiByte_joinBytes hi 0#8)
  · rw [joinBytes, BitVec.getLsbD_append, if_pos hk, BitVec.getLsbD_zero]

/-- One byte of the bitwise form on the two bytes of the register: the byte meets the low one, `T` of the two
replaces it, and the high one is shifted down into it. -/
theorem crcBitwiseByte_joinBytes (hi lo b : Byte) :
    crcBitwiseByte (joinBytes hi lo) b = crcT (lo ^^^ b) ^^^ joinBytes 0#8 hi := by
  have hsplit : joinBytes hi lo ^^^ joinBytes 0#8 b = joinBytes 0#8 (lo ^^^ b) ^^^ joinBytes hi 0#8 := by
    rw [joinBytes_xor, joinBytes_xor, BitVec.xor_zero, BitVec.zero_xor, BitVec.xor_zero]
  rw [crcBitwiseByte, setWidth_eq_joinBytes, hsplit, crcShifts_xor, ← crcT_eq_crcShifts, crcShifts_high]

theorem hiByte_xor (v w : Word16) : hiByte (v ^^^ w) = hiByte v ^^^ hiByte w := BitVec.extractLsb'_xor

theorem loByte_xor (v w : Word16) : loByte (v ^^^ w) = loByte v ^^^ loByte w := BitVec.extractLsb'_xor

/-- The accumulators that stand for a register of the bitwise form (R64): its bytes, the low one as ACC_HI. -/
def crcAccumulators (r : Word16) : Byte × Byte := (loByte r, hiByte r)

theorem crcStep_crcAccumulators (r : Word16) (b : Byte) :
    crcStep (loByte r) (hiByte r) b = crcAccumulators (crcBitwiseByte r b) := by
  have hbyte : crcBitwiseByte r b = crcT (loByte r ^^^ b) ^^^ joinBytes 0#8 (hiByte r) := by
    rw [← crcBitwiseByte_joinBytes, joinBytes_hi_lo]
  rw [hbyte, crcAccumulators, hiByte_xor, loByte_xor, hiByte_joinBytes, loByte_joinBytes, BitVec.xor_zero,
    BitVec.xor_comm]
  rfl

/-- A step on both sides keeps the two forms together along any sequence, from any register. -/
theorem crcAccumulate_crcAccumulators (r : Word16) (bytes : List Byte) :
    crcAccumulate (crcAccumulators r) bytes = crcAccumulators (bytes.foldl crcBitwiseByte r) := by
  induction bytes generalizing r with
  | nil => rfl
  | cons b bs ih =>
    rw [crcAccumulate_cons, List.foldl_cons, ← ih]
    exact congrArg (crcAccumulate · bs) (crcStep_crcAccumulators r b)

/-- The accumulators of a sequence are those of its register. -/
theorem crcAccumulate_seed (bytes : List Byte) :
    crcAccumulate (0xFF#8, 0xFF#8) bytes = crcAccumulators (crcRegister bytes) :=
  crcAccumulate_crcAccumulators Config.crcSeed bytes

theorem checksum_eq_joinBytes (bytes : List Byte) :
    checksum bytes = joinBytes (crcAccumulate (0xFF#8, 0xFF#8) bytes).1 (crcAccumulate (0xFF#8, 0xFF#8) bytes).2 := by
  rw [← checksum_bytes, joinBytes_hi_lo]

/-- Settles O46: each byte keeps the accumulators the two bytes of the register. -/
theorem tableFormAgreesWithBitwiseForm : Obligations.TableFormAgreesWithBitwiseForm := by
  refine ⟨crcStep_crcAccumulators, fun bytes => ⟨crcAccumulate_seed bytes, ?_⟩⟩
  rw [checksum_eq_joinBytes, crcAccumulate_seed]
  rfl

/-! ### The residue (R68) -/

/-- A byte equal to ACC_HI reads entry 0 of the tables, so that ACC_LO moves up and 0 follows it. -/
theorem crcStep_self (hi lo : Byte) : crcStep hi lo hi = (lo, 0#8) := by
  have hT : crcT 0#8 = 0#16 := by decide
  simp only [crcStep, BitVec.xor_self, tableHi, tableLo, hT]
  exact congrArg (·, 0#8) BitVec.xor_zero

/-- Any accumulators, fed to themselves in wire order, end at zero. -/
theorem crcAccumulate_self (p : Byte × Byte) : crcAccumulate p [p.1, p.2] = (0#8, 0#8) := by
  simp only [crcAccumulate_cons, crcStep_self, crcAccumulate_nil]

theorem checksum_append_wireBytes (m : List Byte) : checksum (m ++ wireBytes (checksum m)) = 0#16 := by
  have hzero : crcAccumulate (0xFF#8, 0xFF#8) (m ++ wireBytes (checksum m)) = (0#8, 0#8) := by
    rw [crcAccumulate_append, ← checksum_bytes]
    exact crcAccumulate_self _
  rw [checksum_eq_joinBytes, hzero]
  rfl

theorem joinBytes_eq_iff (x y : Byte) (v : Word16) : joinBytes x y = v ↔ x = hiByte v ∧ y = loByte v := by
  rw [← joinBytes_inj, joinBytes_hi_lo]

theorem crcStep_injective (hi lo : Byte) : Function.Injective (crcStep hi lo) := fun _ _ h =>
  (BitVec.xor_right_inj hi).mp (tableLo_injective (congrArg Prod.snd h))

/-- Settles O47: the two trailing bytes are the accumulators that they meet, so each empties one of them. -/
theorem checksumResidueIsZero : Obligations.ChecksumResidueIsZero :=
  ⟨rfl, checksum_append_wireBytes, checksum_append_wireBytes [], fun _ _ _ => joinBytes_eq_iff _ _ _,
    fun hi lo _ _ h => crcStep_injective hi lo h⟩

end Sys2Proof.Machine

/-! # The Checksum Engine's commands (R65 to R67)

Each of the three leaves a checksum in the accumulators and answers it, and changes nothing else. -/

namespace Sys2Proof.Machine

variable {s : State}

/-- The state that the three commands leave: the checksum in the accumulators and as the answer. -/
def State.answerChecksum (s : State) (c : Word16) : State := (s.setAcc c).answer c

theorem exec_crcBuf (hh : s.halt = false) (hl : s.lenInRange) :
    exec .crcBuf s = .next (s.answerChecksum (checksum s.frame)) := by
  rw [exec, execCrcBuf, s.unlessHalted_running _ hh, s.sweep_ok hl]
  rfl

theorem exec_crcInit (hh : s.halt = false) : exec .crcInit s = .next (s.answerChecksum Config.crcSeed) :=
  s.unlessHalted_running _ hh

theorem exec_crcByte (b : Byte) (hh : s.halt = false) :
    exec (.crcByte b) s = .next (s.answerChecksum
      (joinBytes (crcStep s.accHi s.accLo b).1 (crcStep s.accHi s.accLo b).2)) :=
  s.unlessHalted_running _ hh

/-- Settles O29: the sweep reads the current frame. -/
theorem crcBufAnswersTheFrameChecksum : Obligations.CrcBufAnswersTheFrameChecksum :=
  ⟨rfl, fun _ hh hl => ⟨_, exec_crcBuf hh hl, fun _ => rfl, rfl⟩⟩

/-- Settles O30: the seed is what it leaves and answers, from any state. -/
theorem crcInitSeedsTheAccumulators : Obligations.CrcInitSeedsTheAccumulators :=
  ⟨rfl, fun _ hh => ⟨_, exec_crcInit hh, fun _ => rfl, rfl⟩⟩

/-- A word of format B (R47): the opcode, the byte operand, and zeros. -/
theorem toWord_byteOperand (op a : Byte) :
    (⟨op, a, 0, 0, 0, 0⟩ : Fields).toWord = op ++ a ++ 0x000000000000#48 := by
  simp only [Fields.toWord]
  rw [BitVec.append_assoc, BitVec.append_assoc, BitVec.append_assoc]
  rfl

/-- Settles O31: the two bytes of the pair that it joins are those of the step. -/
theorem crcByteTakesOneStep : Obligations.CrcByteTakesOneStep := by
  refine ⟨fun b => ?_, fun s b hh => ⟨_, exec_crcByte b hh, fun _ => rfl, ?_⟩⟩
  · rw [← toWord_byteOperand]
    exact decodeOfEncodeIsTheCommand (.crcByte b) rfl
  · rw [State.answerChecksum, State.setAcc, hiByte_joinBytes, loByte_joinBytes]
    rfl

/-! ### Streaming (R55, R67) -/

theorem execAll_cons_of_next {i : Instr} {is : List Instr} {t : State} (h : exec i s = .next t) :
    execAll (i :: is) s = execAll is t := by
  rw [execAll, h]

theorem checksum_append_singleton (m : List Byte) (b : Byte) :
    checksum (m ++ [b]) = joinBytes (crcStep (hiByte (checksum m)) (loByte (checksum m)) b).1
      (crcStep (hiByte (checksum m)) (loByte (checksum m)) b).2 := by
  rw [checksum_eq_joinBytes, crcAccumulate_append, ← checksum_bytes]
  rfl

/-- After the bytes `m`, CRC.BYTE b continues the checksum of `m` to that of `m` and `b`. -/
theorem exec_crcByte_answerChecksum (m : List Byte) (b : Byte) (hh : s.halt = false) :
    exec (.crcByte b) (s.answerChecksum (checksum m)) = .next (s.answerChecksum (checksum (m ++ [b]))) := by
  rw [checksum_append_singleton]
  exact exec_crcByte b hh

theorem execAll_crcByte_answerChecksum (m bytes : List Byte) (hh : s.halt = false) :
    execAll (bytes.map .crcByte) (s.answerChecksum (checksum m)) =
      .next (s.answerChecksum (checksum (m ++ bytes))) := by
  induction bytes generalizing m with
  | nil => rw [List.append_nil]; rfl
  | cons b bs ih =>
    rw [List.map_cons, execAll_cons_of_next (exec_crcByte_answerChecksum m b hh), ih, ← List.append_cons]

theorem execAll_crcStream (bytes : List Byte) (hh : s.halt = false) :
    execAll (Pseudo.crcStream bytes).expand s = .next (s.answerChecksum (checksum bytes)) :=
  (execAll_cons_of_next (exec_crcInit hh)).trans (execAll_crcByte_answerChecksum [] bytes hh)

/-- Settles O50: CRC.INIT answers the checksum of no bytes, and each CRC.BYTE continues it. -/
theorem streamedChecksumIsTheChecksum : Obligations.StreamedChecksumIsTheChecksum := fun _ bytes hh =>
  ⟨_, execAll_crcStream bytes hh, fun _ => rfl, rfl⟩

end Sys2Proof.Machine

/-! # The Frame Builder's commands (R75 to R81)

Each of the four that write a frame keeps the buffer up to some address, writes bytes from there on and ends the
frame behind them: BLD.REQ and BLD.RSP from address 0, PUSH and APPCRC from LEN. -/

namespace Sys2Proof.Machine

variable {s : State}

/-- The state after bytes were written at `n` on, with LEN set to the address behind them and answered. -/
def State.writeTail (s : State) (n : Nat) (bs : List Byte) : State :=
  ({ s with fb := s.fb.writeBytes n bs, len := BitVec.ofNat 9 (n + bs.length) } : State).answer
    (BitVec.ofNat 16 (n + bs.length))

/-- The state that APPCRC leaves when the checksum fits. -/
def State.withChecksum (s : State) : State :=
  (s.writeTail s.len.toNat (wireBytes (checksum s.frame))).setAcc (checksum s.frame)

theorem add_ofNat_eq_ofNat (n : LenWord) (k : Nat) : n + BitVec.ofNat 9 k = BitVec.ofNat 9 (n.toNat + k) := by
  rw [BitVec.ofNat_add, BitVec.ofNat_toNat, BitVec.setWidth_eq]

theorem lenValue_ofNat {n : Nat} (h : n ≤ 256) : lenValue (BitVec.ofNat 9 n) = BitVec.ofNat 16 n :=
  BitVec.setWidth_ofNat_of_le_of_lt (by decide) (by omega)

/-! ### The frame after a write (R31, R59) -/

theorem State.writeTail_len {n : Nat} {bs : List Byte} (h : n + bs.length ≤ 256) :
    (s.writeTail n bs).len.toNat = n + bs.length :=
  (BitVec.toNat_ofNat _ 9).trans (Nat.mod_eq_of_lt (h.trans_lt (by decide)))

/-- The bytes written are read back in their order. -/
theorem State.writeTail_fbByte (s : State) (n i : Nat) {bs : List Byte} (h : i < bs.length) :
    (s.writeTail n bs).fbByte (n + i) = bs[i] := by
  refine (s.fbByte_writeBytes n (n + i) bs).trans ?_
  simp [h]

/-- A write leaves every byte outside the written ones as it was. -/
theorem sameBytesOutside_writeTail (s : State) (n : Nat) (bs : List Byte) :
    Claims.SameBytesOutside s (s.writeTail n bs) n bs.length := fun a ha =>
  (s.fbByte_writeBytes n a bs).trans (dif_neg (by omega))

theorem State.prefixBytes_add (s : State) (n k : Nat) :
    s.prefixBytes (n + k) = s.prefixBytes n ++ (List.range k).map fun i => s.fbByte (n + i) := by
  simp [State.prefixBytes, List.range_add]

/-- Below the written bytes the buffer is the old one. -/
theorem State.writeTail_prefixBytes (s : State) (n : Nat) (bs : List Byte) :
    (s.writeTail n bs).prefixBytes n = s.prefixBytes n :=
  List.map_congr_left fun a ha => sameBytesOutside_writeTail s n bs a (.inl (List.mem_range.mp ha))

theorem State.writeTail_frame {n : Nat} {bs : List Byte} (h : n + bs.length ≤ 256) :
    (s.writeTail n bs).frame = s.prefixBytes n ++ bs := by
  have hbs : (List.range bs.length).map (fun i => (s.writeTail n bs).fbByte (n + i)) = bs :=
    List.ext_getElem (by simp) fun i _ hi => by simp [s.writeTail_fbByte n i hi]
  rw [State.frame, State.writeTail_len h, State.prefixBytes_add, State.writeTail_prefixBytes, hbs]

theorem Memory.writeBytes_append (m : Memory) (a : Nat) (bs cs : List Byte) :
    (m.writeBytes a bs).writeBytes (a + bs.length) cs = m.writeBytes a (bs ++ cs) := by
  induction bs generalizing m a with
  | nil => rfl
  | cons b bs ih =>
    rw [List.cons_append, Memory.writeBytes, Memory.writeBytes, ← ih, List.length_cons, Nat.add_assoc,
      Nat.add_comm 1]

/-- Bytes written behind a frame extend it. -/
theorem State.writeTail_writeTail (s : State) (n : Nat) (bs cs : List Byte) :
    (s.writeTail n bs).writeTail (n + bs.length) cs = s.writeTail n (bs ++ cs) := by
  rw [State.writeTail, State.writeTail, State.writeTail, List.length_append, ← Nat.add_assoc,
    ← Memory.writeBytes_append]
  rfl

/-! ### The frame with its checksum (R36, R78) -/

theorem State.withChecksum_fbByte_hi (s : State) : s.withChecksum.fbByte s.len.toNat = hiByte (checksum s.frame) :=
  s.writeTail_fbByte s.len.toNat 0 (bs := wireBytes (checksum s.frame)) Nat.two_pos

theorem State.withChecksum_fbByte_lo (s : State) :
    s.withChecksum.fbByte (s.len.toNat + 1) = loByte (checksum s.frame) :=
  s.writeTail_fbByte s.len.toNat 1 (bs := wireBytes (checksum s.frame)) Nat.one_lt_two

theorem State.withChecksum_prefixBytes (s : State) : s.withChecksum.prefixBytes s.len.toNat = s.frame :=
  s.writeTail_prefixBytes s.len.toNat (wireBytes (checksum s.frame))

theorem State.withChecksum_len (hl : s.len.toNat ≤ 254) : s.withChecksum.len.toNat = s.len.toNat + 2 :=
  State.writeTail_len (s := s) (bs := wireBytes (checksum s.frame)) (Nat.add_le_add_right hl 2)

theorem State.withChecksum_frame (hl : s.len.toNat ≤ 254) :
    s.withChecksum.frame = s.frame ++ wireBytes (checksum s.frame) :=
  State.writeTail_frame (s := s) (bs := wireBytes (checksum s.frame)) (Nat.add_le_add_right hl 2)

/-! ### What each command does (R75 to R79) -/

theorem buildBasis_valid {d : Byte} {basis : List Byte} (hh : s.halt = false) (hd : d.toNat ≤ 247)
    (hl : basis.length ≤ 256) : buildBasis d basis s = .next (s.writeTail 0 basis) := by
  rw [buildBasis, s.unlessHalted_running _ hh, validId, if_pos (decide_eq_true hd), s.startFrame_ok hl, attempt_ok,
    lenValue_ofNat hl, State.writeTail, Nat.zero_add]

theorem buildBasis_invalid {d : Byte} (basis : List Byte) (hh : s.halt = false) (hd : 248 ≤ d.toNat) :
    buildBasis d basis s = .next s.raiseAssert := by
  rw [buildBasis, s.unlessHalted_running _ hh, validId, if_neg (mt of_decide_eq_true (not_le.mpr hd))]

theorem exec_bldReq {d : Byte} (fc : Byte) (addr cnt : Word16) (hh : s.halt = false) (hd : d.toNat ≤ 247) :
    exec (.bldReq d fc addr cnt) s = .next (s.writeTail 0 (requestBasis d fc addr cnt)) :=
  buildBasis_valid hh hd (Nat.le_of_ble_eq_true rfl)

theorem exec_bldRsp {d : Byte} (fc : Byte) (hh : s.halt = false) (hd : d.toNat ≤ 247) :
    exec (.bldRsp d fc) s = .next (s.writeTail 0 (responseBasis d fc)) :=
  buildBasis_valid hh hd (Nat.le_of_ble_eq_true rfl)

/-- An append that fits writes from LEN on, and `k` may follow its answer. -/
theorem attempt_appendBytes_answer {bs : List Byte} (h : s.len.toNat + bs.length ≤ 256) (k : State → State) :
    (attempt (s.appendBytes bs) fun t => .next (k (t.answer (lenValue t.len)))) =
      .next (k (s.writeTail s.len.toNat bs)) := by
  rw [s.appendBytes_ok h, attempt_ok, add_ofNat_eq_ofNat, lenValue_ofNat h, State.writeTail]

theorem exec_push (b : Byte) (hh : s.halt = false) (hl : s.len.toNat < 256) :
    exec (.push b) s = .next (s.writeTail s.len.toNat [b]) := by
  rw [exec, execPush, s.unlessHalted_running _ hh, if_neg hl.ne]
  exact attempt_appendBytes_answer (bs := [b]) hl id

theorem exec_push_full (b : Byte) (hh : s.halt = false) (hl : s.len.toNat = 256) :
    exec (.push b) s = .next (s.raise .overflow) := by
  rw [exec, execPush, s.unlessHalted_running _ hh, if_pos hl]

theorem exec_appcrc (hh : s.halt = false) (hl : s.len.toNat ≤ 254) : exec .appcrc s = .next s.withChecksum := by
  rw [exec, execAppcrc, s.unlessHalted_running _ hh, if_neg (show ¬ 256 - 2 < s.len.toNat from hl.not_gt),
    s.sweep_ok (hl.trans (by decide))]
  exact attempt_appendBytes_answer (bs := wireBytes (checksum s.frame)) (Nat.add_le_add_right hl 2)
    (·.setAcc (checksum s.frame))

theorem exec_appcrc_full (hh : s.halt = false) (hl : 254 < s.len.toNat) :
    exec .appcrc s = .next (s.raise .overflow) := by
  rw [exec, execAppcrc, s.unlessHalted_running _ hh, if_pos (show 256 - 2 < s.len.toNat from hl)]

theorem exec_clr (hh : s.halt = false) : exec .clr s = .next (s.writeTail 0 []) :=
  s.unlessHalted_running _ hh

/-- Settles O32: the basis is written from address 0 on, and is six bytes long. -/
theorem bldReqLaysOutTheRequestBasis : Obligations.BldReqLaysOutTheRequestBasis := by
  refine ⟨fun d fc addr cnt => decodeOfEncodeIsTheCommand (.bldReq d fc addr cnt) rfl,
    fun s d fc addr cnt hh hd => ?_, fun s d fc addr cnt hh hd => buildBasis_invalid _ hh hd⟩
  have hbyte (i : Nat) (hi : i < 6) := s.writeTail_fbByte 0 i (bs := requestBasis d fc addr cnt) hi
  exact ⟨_, exec_bldReq fc addr cnt hh hd, hbyte 0 (by decide), hbyte 1 (by decide), hbyte 2 (by decide),
    hbyte 3 (by decide), hbyte 4 (by decide), hbyte 5 (by decide), sameBytesOutside_writeTail s 0 _, rfl⟩

/-- Settles O33: the basis is written from address 0 on, and is two bytes long. -/
theorem bldRspLaysOutTheResponseBasis : Obligations.BldRspLaysOutTheResponseBasis := by
  refine ⟨fun d fc => decodeOfEncodeIsTheCommand (.bldRsp d fc) rfl,
    fun s d fc hh hd => ?_, fun s d fc hh hd => buildBasis_invalid _ hh hd⟩
  have hbyte (i : Nat) (hi : i < 2) := s.writeTail_fbByte 0 i (bs := responseBasis d fc) hi
  exact ⟨_, exec_bldRsp fc hh hd, hbyte 0 (by decide), hbyte 1 (by decide), sameBytesOutside_writeTail s 0 _, rfl⟩

/-- Settles O34: the byte is written at LEN when there is room for it. -/
theorem pushAppendsOneByte : Obligations.PushAppendsOneByte := by
  refine ⟨fun b => ?_, fun s b hh hl => ?_, fun _ b hh hl => exec_push_full b hh hl⟩
  · rw [← toWord_byteOperand]
    exact decodeOfEncodeIsTheCommand (.push b) rfl
  · exact ⟨_, exec_push b hh hl, s.writeTail_fbByte s.len.toNat 0 (bs := [b]) Nat.one_pos,
      sameBytesOutside_writeTail s _ [b], State.writeTail_len hl, rfl⟩

/-- Settles O35: the checksum's two bytes are written at LEN on when there is room for both. -/
theorem appcrcAppendsTheFrameChecksum : Obligations.AppcrcAppendsTheFrameChecksum :=
  ⟨rfl,
    fun s hh hl => ⟨_, exec_appcrc hh hl, s.withChecksum_fbByte_hi, s.withChecksum_fbByte_lo,
      sameBytesOutside_writeTail s _ (wireBytes _), State.withChecksum_len hl, rfl⟩,
    fun _ hh hl => exec_appcrc_full hh hl⟩

/-- Settles O36: no byte is written, and LEN is 0. -/
theorem clrEmptiesTheFrame : Obligations.ClrEmptiesTheFrame :=
  ⟨rfl, fun _ hh => ⟨_, exec_clr hh, fun _ => rfl, rfl⟩⟩

/-! ### CHK on a frame with its checksum (R81, R90) -/

theorem exec_chk (hh : s.halt = false) (hl : s.len.toNat ≤ 256) (hl' : 2 ≤ s.len.toNat) :
    exec .chk s = .next (compareChecksums (joinBytes (s.fbByte (s.len.toNat - 2)) (s.fbByte (s.len.toNat - 1)))
      (checksum (s.prefixBytes (s.len.toNat - 2))) s) := by
  rw [exec, execChk, s.unlessHalted_running _ hh, if_neg hl'.not_gt, s.loadByte_ok (by omega),
    s.loadByte_ok (by omega), s.sweep_ok (by omega)]
  rfl

/-- CHK after APPCRC compares the appended bytes with the checksum of the frame that they were computed from. -/
theorem exec_chk_withChecksum (hh : s.halt = false) (hl : s.len.toNat ≤ 254) :
    exec .chk s.withChecksum = .next (compareChecksums (checksum s.frame) (checksum s.frame) s.withChecksum) := by
  have hlen : s.withChecksum.len.toNat = s.len.toNat + 2 := State.withChecksum_len hl
  rw [exec_chk (s := s.withChecksum) hh (by omega) (by omega), hlen, Nat.add_sub_cancel]
  simp only [Nat.add_succ_sub_one, s.withChecksum_fbByte_hi, s.withChecksum_fbByte_lo, s.withChecksum_prefixBytes,
    joinBytes_hi_lo]

theorem chk_withChecksum_answers (hh : s.halt = false) (hl : s.len.toNat ≤ 254) :
    ∃ u, exec .chk s.withChecksum = .next u ∧ u.rsp = some ⟨.ok, BitVec.ofNat 16 (s.len.toNat + 2), false⟩ := by
  have hvalue : lenValue s.withChecksum.len = BitVec.ofNat 16 (s.len.toNat + 2) :=
    lenValue_ofNat (Nat.add_le_add_right hl 2)
  refine ⟨_, exec_chk_withChecksum hh hl, ?_⟩
  rw [compareChecksums, if_pos rfl, hvalue]
  rfl

/-! ### Sequences of commands (R55, R81, R145) -/

/-- Pushed bytes extend the frame in their order. -/
theorem execAll_push_writeTail (bs payload : List Byte) (is : List Instr) (hh : s.halt = false)
    (hl : bs.length + payload.length ≤ 256) :
    execAll (payload.map .push ++ is) (s.writeTail 0 bs) = execAll is (s.writeTail 0 (bs ++ payload)) := by
  induction payload generalizing bs with
  | nil => rw [List.append_nil]; rfl
  | cons b payload ih =>
    rw [List.length_cons] at hl
    have hlen : (s.writeTail 0 bs).len.toNat = 0 + bs.length := State.writeTail_len (by omega)
    have hpush : exec (.push b) (s.writeTail 0 bs) = .next (s.writeTail 0 (bs ++ [b])) := by
      rw [exec_push (s := s.writeTail 0 bs) b hh (by omega), hlen, State.writeTail_writeTail]
    rw [List.map_cons, List.cons_append, execAll_cons_of_next hpush,
      ih _ (by rw [List.length_append, List.length_singleton]; omega), ← List.append_cons]

/-- APPCRC appends to the frame what makes it pass its check. -/
theorem execAll_appcrc_passes (hh : s.halt = false) (hl : s.len.toNat ≤ 254) :
    ∃ t u, execAll [.appcrc] s = .next t ∧
      t.len.toNat = s.len.toNat + 2 ∧ t.rsp = some ⟨.ok, BitVec.ofNat 16 (s.len.toNat + 2), false⟩ ∧
      t.prefixBytes s.len.toNat = s.frame ∧
      exec .chk t = .next u ∧ u.rsp = some ⟨.ok, BitVec.ofNat 16 (s.len.toNat + 2), false⟩ := by
  obtain ⟨u, hu, hrsp⟩ := chk_withChecksum_answers hh hl
  exact ⟨s.withChecksum, u, execAll_cons_of_next (exec_appcrc hh hl), State.withChecksum_len hl, rfl,
    s.withChecksum_prefixBytes, hu, hrsp⟩

/-- Payload behind a basis, and APPCRC, make a frame of `n` bytes that passes its check. -/
theorem builtFrame_passes {n : Nat} {basis payload : List Byte} (hh : s.halt = false)
    (hn : n = basis.length + payload.length + 2) (hl : n ≤ 256) :
    ∃ t u, execAll (payload.map .push ++ [.appcrc]) (s.writeTail 0 basis) = .next t ∧
      t.len.toNat = n ∧ t.rsp = some ⟨.ok, BitVec.ofNat 16 n, false⟩ ∧
      t.prefixBytes (basis.length + payload.length) = basis ++ payload ∧
      exec .chk t = .next u ∧ u.rsp = some ⟨.ok, BitVec.ofNat 16 n, false⟩ := by
  have hfits : 0 + (basis ++ payload).length ≤ 256 := by rw [List.length_append]; omega
  have hlen : (s.writeTail 0 (basis ++ payload)).len.toNat = basis.length + payload.length := by
    rw [State.writeTail_len hfits, List.length_append, Nat.zero_add]
  have hframe : (s.writeTail 0 (basis ++ payload)).frame = basis ++ payload := State.writeTail_frame hfits
  have h := execAll_appcrc_passes (s := s.writeTail 0 (basis ++ payload)) hh (by omega)
  rw [execAll_push_writeTail basis payload _ hh (by omega), hn]
  rwa [hlen, hframe] at h

/-- Settles O52: both bases start the frame, and the payload and the checksum are appended to either. -/
theorem builtFramePassesItsCheck : Obligations.BuiltFramePassesItsCheck := by
  constructor
  · intro s d fc addr cnt payload hh hd hp
    rw [execAll_cons_of_next (exec_bldReq fc addr cnt hh hd)]
    exact builtFrame_passes (basis := requestBasis d fc addr cnt) hh (Nat.add_right_comm 6 2 _) (by omega)
  · intro s d fc payload hh hd hp
    rw [Pseudo.expand, execAll_cons_of_next (exec_bldRsp fc hh hd)]
    exact builtFrame_passes (basis := responseBasis d fc) hh (Nat.add_right_comm 2 2 _) (by omega)

/-- Settles O53: the first APPCRC leaves a frame of checksum 0, so the second one appends two zero bytes. -/
theorem secondAppcrcAppendsZeros : Obligations.SecondAppcrcAppendsZeros := by
  intro s hh hl
  have hl' : s.withChecksum.len.toNat = s.len.toNat + 2 := State.withChecksum_len (by omega)
  have hzero : checksum s.withChecksum.frame = 0#16 := by
    rw [State.withChecksum_frame (by omega), checksum_append_wireBytes]
  have hhi := s.withChecksum.withChecksum_fbByte_hi
  have hlo := s.withChecksum.withChecksum_fbByte_lo
  obtain ⟨u, hu, hrsp⟩ := chk_withChecksum_answers (s := s.withChecksum) hh (by omega)
  rw [hl', hzero] at hhi hlo
  rw [hl'] at hrsp
  refine ⟨s.withChecksum.withChecksum, u, ?_, by rw [State.withChecksum_len (by omega), hl'], hhi, hlo, hu, hrsp⟩
  rw [execAll_cons_of_next (exec_appcrc hh (by omega)),
    execAll_cons_of_next (exec_appcrc (s := s.withChecksum) hh (by omega)), execAll]

end Sys2Proof.Machine

/-! # The Frame Validator's command (R90 to R97)

CHK compares the last two bytes of the frame with the checksum of those before them. Behind a frame that LOAD has
made, these are the last two bytes loaded and the checksum of the others. -/

namespace Sys2Proof.Machine

variable {i : Instr} {s : State} {p : Plan}

/-! ### The flush request (R93) -/

theorem planBasis_flush (d : Byte) (basis : List Byte) : (planBasis d basis).rsp.flush = false := by
  rw [planBasis]
  split <;> rfl

theorem planAppend_flush {bs : List Byte} {more : List Write} (h : planAppend s bs more = .ok p) :
    p.rsp.flush = false := by
  unfold planAppend at h
  split at h <;> cases h
  rfl

/-- A comparison asks for a flush exactly when it finds a mismatch and RECOVERY_EN is 1. -/
theorem planCompare_flush_iff (s : State) (rx recomputed : Word16) :
    (planCompare s rx recomputed).rsp.flush = true ↔
      (planCompare s rx recomputed).rsp.status = .crcMismatch ∧ s.recoveryEn = true := by
  rw [planCompare]
  split
  case isTrue => exact iff_of_false nofun nofun
  case isFalse => exact (and_iff_right rfl).symm

/-- Every command but CHK answers OK or raises an error, without a flush request. -/
theorem runningPlan_flush_of_ne_chk (hi : i ≠ .chk) (h : runningPlan i s = .ok p) : p.rsp.flush = false := by
  cases i with
  | chk => exact absurd rfl hi
  | crcBuf => obtain ⟨bytes, -, h⟩ := bind_eq_ok h; cases h; rfl
  | bldReq d fc addr cnt => cases h; exact planBasis_flush d _
  | bldRsp d fc => cases h; exact planBasis_flush d _
  | push b =>
    simp only [runningPlan] at h
    split at h
    · cases h; rfl
    · exact planAppend_flush h
  | appcrc =>
    simp only [runningPlan] at h
    split at h
    · cases h; rfl
    · obtain ⟨bytes, -, h⟩ := bind_eq_ok h; exact planAppend_flush h
  | flt d => cases h; split <;> rfl
  | fltFb =>
    simp only [runningPlan] at h
    split at h
    · split at h
      · cases h; rfl
      · obtain ⟨d, -, h⟩ := bind_eq_ok h; cases h; rfl
    · cases h; rfl
  | setid c => cases h; split <;> rfl
  | crcInit | crcByte | clr | setcfg => cases h; rfl

theorem runningPlan_chk_flush_iff (h : runningPlan .chk s = .ok p) :
    p.rsp.flush = true ↔ p.rsp.status = .crcMismatch ∧ s.recoveryEn = true := by
  simp only [runningPlan] at h
  split at h
  · cases h; exact iff_of_false nofun nofun
  · obtain ⟨c, -, h⟩ := bind_eq_ok h; cases h; exact planCompare_flush_iff s c.1 c.2

theorem plan_flush_iff (h : plan i s = .ok p) :
    p.rsp.flush = true ↔ i = .chk ∧ p.rsp.status = .crcMismatch ∧ s.recoveryEn = true := by
  unfold plan at h
  split at h
  case isTrue => cases h; exact iff_of_false nofun nofun
  case isFalse =>
    rcases eq_or_ne i .chk with rfl | hi
    · rw [runningPlan_chk_flush_iff h, and_iff_right rfl]
    · exact iff_of_false (Bool.eq_false_iff.mp (runningPlan_flush_of_ne_chk hi h)) fun ⟨hchk, _⟩ => hi hchk

/-- Settles O18: the flush bit is that of the plan of CHK, and no word reads the response before it. -/
theorem flushRequestOnlyOnMismatch : Obligations.FlushRequestOnlyOnMismatch := by
  refine fun s t w r h hr => ⟨?_, fun w' => acceptWord_rsp w' t _⟩
  rcases acceptWord_next h with ⟨i, hd, h⟩ | ⟨why, hd, ⟨-, rfl⟩ | ⟨-, rfl⟩⟩
  · obtain ⟨p, hp, rfl⟩ := exec_eq_next_iff.mp h
    cases hr
    rw [hd, Decoded.command.injEq]
    exact plan_flush_iff hp
  · cases hr; exact iff_of_false nofun nofun
  · cases hr; exact iff_of_false nofun nofun

/-! ### The comparison (R90, R91, R94, R95) -/

theorem lenValue_eq_ofNat (n : LenWord) : lenValue n = BitVec.ofNat 16 n.toNat :=
  (BitVec.ofNat_toNat 16 n).symm

theorem exec_chk_short (hh : s.halt = false) (hl : s.len.toNat < 2) : exec .chk s = .next (s.raise .short) := by
  rw [exec, execChk, s.unlessHalted_running _ hh, if_pos hl]

/-- Settles O37: the comparison writes the diagnostics, the accumulators and the answer. -/
theorem chkComparesTheTrailingChecksum : Obligations.ChkComparesTheTrailingChecksum := by
  refine ⟨rfl, fun s hh hl => exec_chk_short hh hl, ?_⟩
  rintro s _ _ hh hl' hl rfl rfl
  refine ⟨_, exec_chk hh hl hl', fun _ => ?_, ?_⟩
  · rw [compareChecksums_eq_plan]
    rfl
  · rw [compareChecksums_eq_plan, planCompare, lenValue_eq_ofNat]
    rfl

/-! ### CHK of a loaded frame (R96, R97) -/

/-- LOAD writes its bytes from address 0 on, whatever commands follow it. -/
theorem execAll_load (bytes : List Byte) (is : List Instr) (hh : s.halt = false) (hl : bytes.length ≤ 256) :
    execAll ((Pseudo.load bytes).expand ++ is) s = execAll is (s.writeTail 0 bytes) :=
  (execAll_cons_of_next (exec_clr hh)).trans (execAll_push_writeTail [] bytes is hh ((Nat.zero_add _).trans_le hl))

theorem State.writeTail_zero_frame {bytes : List Byte} (hl : bytes.length ≤ 256) :
    (s.writeTail 0 bytes).frame = bytes :=
  State.writeTail_frame (n := 0) ((Nat.zero_add _).trans_le hl)

theorem State.writeTail_zero_len {bytes : List Byte} (hl : bytes.length ≤ 256) :
    (s.writeTail 0 bytes).len.toNat = bytes.length := by
  rw [State.writeTail_len (by omega), Nat.zero_add]

/-- Settles O49: CLR and the pushes leave what one write of all the bytes from address 0 on leaves. -/
theorem loadMakesTheBytesTheFrame : Obligations.LoadMakesTheBytesTheFrame := by
  intro s bytes hh hl
  have hload := execAll_load bytes [] hh hl
  rw [List.append_nil] at hload
  refine ⟨s.writeTail 0 bytes, hload, State.writeTail_zero_len hl, State.writeTail_zero_frame hl,
    sameBytesOutside_writeTail s 0 bytes, ?_⟩
  rw [State.writeTail, Nat.zero_add]
  rfl

/-- Two bytes behind a frame are what CHK compares with the checksum of that frame. -/
theorem exec_chk_writeTail (x y : Byte) (hh : s.halt = false) (hl : s.len.toNat ≤ 254) :
    exec .chk (s.writeTail s.len.toNat [x, y]) =
      .next (compareChecksums (joinBytes x y) (checksum s.frame) (s.writeTail s.len.toNat [x, y])) := by
  have hlen : (s.writeTail s.len.toNat [x, y]).len.toNat = s.len.toNat + 2 :=
    State.writeTail_len (Nat.add_le_add_right hl 2)
  have hx : (s.writeTail s.len.toNat [x, y]).fbByte s.len.toNat = x := s.writeTail_fbByte _ 0 (bs := [x, y]) Nat.two_pos
  have hy : (s.writeTail s.len.toNat [x, y]).fbByte (s.len.toNat + 1) = y :=
    s.writeTail_fbByte _ 1 (bs := [x, y]) Nat.one_lt_two
  rw [exec_chk (s := s.writeTail s.len.toNat [x, y]) hh (by omega) (by omega), hlen]
  simp only [Nat.add_sub_cancel, Nat.add_succ_sub_one, hx, hy, s.writeTail_prefixBytes, State.frame]

theorem exec_chk_loaded (m : List Byte) (x y : Byte) (hh : s.halt = false) (hl : m.length ≤ 254) :
    exec .chk (s.writeTail 0 (m ++ [x, y])) =
      .next (compareChecksums (joinBytes x y) (checksum m) (s.writeTail 0 (m ++ [x, y]))) := by
  have hlen : (s.writeTail 0 m).len.toNat = m.length := State.writeTail_zero_len (by omega)
  have h := exec_chk_writeTail (s := s.writeTail 0 m) x y hh (by omega)
  rwa [State.writeTail_zero_frame (by omega), hlen, ← Nat.zero_add m.length, State.writeTail_writeTail] at h

/-- Settles O51: the last two of the loaded bytes are compared with the checksum of the others. -/
theorem chkAcceptsOnlyTheTrueChecksum : Obligations.ChkAcceptsOnlyTheTrueChecksum := by
  intro s m x y hh hl
  have hfits : (m ++ [x, y]).length ≤ 256 := by rw [List.length_append]; exact Nat.add_le_add_right hl 2
  have hvalue : lenValue (s.writeTail 0 (m ++ [x, y])).len = BitVec.ofNat 16 (m.length + 2) := by
    rw [lenValue_eq_ofNat, State.writeTail_zero_len hfits, List.length_append]
    rfl
  refine ⟨_, (execAll_load _ [.chk] hh hfits).trans (execAll_cons_of_next (exec_chk_loaded m x y hh hl)), ?_⟩
  rcases compareChecksums_cases (joinBytes x y) (checksum m) (s.writeTail 0 (m ++ [x, y])) with
    ⟨heq, h⟩ | ⟨hne, h⟩
  · rw [h, hvalue]
    exact ⟨fun _ => rfl, fun hne => absurd heq hne⟩
  · rw [h]
    exact ⟨fun heq => absurd heq hne, fun _ => ⟨rfl, rfl, rfl⟩⟩

end Sys2Proof.Machine

/-! # The Address Filter's commands (R100 to R103)

The filter is one predicate. FLT answers it for its operand; FLT.FB is FLT of the first byte of the frame when there
is one, so that what FLT answers and keeps is said once for both. -/

namespace Sys2Proof.Machine

variable {s : State}

/-! ### The predicate (R100) -/

theorem accepts_iff (own d : Byte) : accepts own d = true ↔ d = own ∨ d = 0x00#8 := by
  rw [accepts, Bool.or_eq_true, decide_eq_true_eq, decide_eq_true_eq]

theorem bitValue_accepts (own d : Byte) :
    bitValue (accepts own d) = if d = own ∨ d = 0x00#8 then 1#16 else 0#16 :=
  if_congr (accepts_iff own d) rfl rfl

/-- Settles O45: a destination above 247 is neither a legal identifier nor the broadcast. -/
theorem filterIsTwoEqualities : Obligations.FilterIsTwoEqualities := by
  refine ⟨accepts_iff, fun own => (accepts_iff own _).mpr (.inr rfl), fun own d hown hd => ?_⟩
  rw [Bool.eq_false_iff, Ne, accepts_iff]
  rintro (rfl | rfl)
  · exact absurd hd (not_le.mpr (Nat.lt_succ_of_le hown))
  · exact absurd hd (by decide)

/-! ### The NOID test (R103) -/

@[simp] theorem State.unlessNoId_configured (r : Result) (hv : s.idValid = true) : s.unlessNoId r = r := if_pos hv

@[simp] theorem State.unlessNoId_unconfigured (r : Result) (hv : s.idValid = false) :
    s.unlessNoId r = .next (s.raise .noid) := if_neg (Bool.eq_false_iff.mp hv)

/-! ### What each command does (R101, R102) -/

theorem exec_flt (d : Byte) (hh : s.halt = false) (hv : s.idValid = true) :
    exec (.flt d) s = .next (s.answer (bitValue (accepts s.ownId d))) :=
  (s.unlessHalted_running _ hh).trans (s.unlessNoId_configured _ hv)

theorem exec_flt_noid (d : Byte) (hh : s.halt = false) (hv : s.idValid = false) :
    exec (.flt d) s = .next (s.raise .noid) :=
  (s.unlessHalted_running _ hh).trans (s.unlessNoId_unconfigured _ hv)

theorem exec_fltFb_noid (hh : s.halt = false) (hv : s.idValid = false) : exec .fltFb s = .next (s.raise .noid) :=
  (s.unlessHalted_running _ hh).trans (s.unlessNoId_unconfigured _ hv)

theorem exec_fltFb_short (hh : s.halt = false) (hv : s.idValid = true) (hl : s.len.toNat = 0) :
    exec .fltFb s = .next (s.raise .short) := by
  rw [exec, execFltFb, s.unlessHalted_running _ hh, s.unlessNoId_configured _ hv, if_pos hl]

/-- Settles O44: behind the tests that the two share, the read of FB[0] succeeds. -/
theorem fltFbIsFltOfTheFirstByte : Obligations.FltFbIsFltOfTheFirstByte := by
  intro s hl
  change execFltFb s = execFlt (s.fbByte 0) s
  rw [execFltFb, if_neg (Nat.one_le_iff_ne_zero.mp hl), s.loadByte_ok Nat.ofNat_pos, attempt_ok, execFlt]

/-- FLT's answer, with the filter's two equalities written out. -/
theorem exec_flt_answers (d : Byte) (hh : s.halt = false) (hv : s.idValid = true) :
    ∃ t, exec (.flt d) s = .next t ∧ Claims.SameBytes s t ∧
      t = { s with rsp := some ⟨.ok, if d = s.ownId ∨ d = 0x00#8 then 1#16 else 0#16, false⟩ } :=
  ⟨_, exec_flt d hh hv, fun _ => rfl, by rw [bitValue_accepts]; rfl⟩

/-- Settles O38: only the response is written, and its value is the filter's bit. -/
theorem fltAnswersTheFilter : Obligations.FltAnswersTheFilter := by
  refine ⟨fun d => ?_, fun _ d hh hv => exec_flt_answers d hh hv, fun _ d hh hv => exec_flt_noid d hh hv⟩
  rw [← toWord_byteOperand]
  exact decodeOfEncodeIsTheCommand (.flt d) rfl

/-- Settles O39: with a byte in the frame it is FLT of that byte. -/
theorem fltFbFiltersTheFirstByte : Obligations.FltFbFiltersTheFirstByte := by
  refine ⟨rfl, fun s hh hv hl => ?_, fun _ hh hv hl => exec_fltFb_short hh hv hl,
    fun _ hh hv => exec_fltFb_noid hh hv⟩
  rw [fltFbIsFltOfTheFirstByte s hl]
  exact exec_flt_answers (s.fbByte 0) hh hv

end Sys2Proof.Machine

/-! # Identifier assignment and configuration (R110 to R114)

SETID tests its candidate as an integer. A 16-bit field that denotes an integer in 0..247 is that integer read
unsigned, so that the test of the raw field is the same test. -/

namespace Sys2Proof.Machine

variable {s : State}

/-! ### The candidate (R111) -/

theorem validCandidate_iff (c : Int) : validCandidate c = true ↔ 0 ≤ c ∧ c ≤ 247 := by
  rw [validCandidate, Bool.and_eq_true, decide_eq_true_eq, decide_eq_true_eq]
  rfl

theorem candidateByte_natCast (c : Nat) : candidateByte c = BitVec.ofNat 8 c := by
  rw [candidateByte, BitVec.ofInt_natCast, loByte, ← BitVec.setWidth_eq_extractLsb' (by decide),
    BitVec.setWidth_ofNat_of_le (by decide)]

theorem byteValue_ofNat {c : Nat} (h : c < 256) : byteValue (BitVec.ofNat 8 c) = BitVec.ofNat 16 c :=
  BitVec.setWidth_ofNat_of_le_of_lt (by decide) h

/-- A field that is at most 247 unsigned has its sign bit clear, and so denotes itself. -/
theorem toInt_eq_toNat_of_le {v : Word16} (h : v.toNat ≤ 247) : v.toInt = v.toNat :=
  BitVec.toInt_eq_toNat_of_lt (by omega)

/-- The test on the signed candidate is the test on the raw field. -/
theorem toInt_inRange_iff (v : Word16) : 0 ≤ v.toInt ∧ v.toInt ≤ 247 ↔ v.toNat ≤ 247 := by
  rw [BitVec.toInt_eq_toNat_cond]
  split <;> omega

/-- The test on the raw field, byte by byte. -/
theorem hiByte_loByte_inRange_iff (v : Word16) : hiByte v = 0#8 ∧ (loByte v).toNat ≤ 247 ↔ v.toNat ≤ 247 := by
  have hhi : (hiByte v).toNat = v.toNat / 256 % 256 := by
    rw [hiByte, BitVec.extractLsb'_toNat, Nat.shiftRight_eq_div_pow]
  have hlo : (loByte v).toNat = v.toNat % 256 := BitVec.extractLsb'_toNat ..
  have hv := v.isLt
  rw [← BitVec.toNat_inj, hhi, hlo, BitVec.toNat_ofNat]
  omega

/-! ### What each command does (R110, R112, R113) -/

theorem exec_setid {c : Nat} (hh : s.halt = false) (hc : c ≤ 247) :
    exec (.setid c) s = .next ((s.setOwnId (BitVec.ofNat 8 c)).answer (BitVec.ofNat 16 c)) := by
  rw [exec, execSetid, s.unlessHalted_running _ hh, if_pos ((validCandidate_iff c).mpr (by omega)),
    candidateByte_natCast, byteValue_ofNat (by omega)]

theorem exec_setid_invalid {c : Int} (hh : s.halt = false) (hc : ¬ (0 ≤ c ∧ c ≤ 247)) :
    exec (.setid c) s = .next (s.raise .invalidId) := by
  rw [exec, execSetid, s.unlessHalted_running _ hh, if_neg (mt (validCandidate_iff c).mp hc)]

theorem exec_setcfg (en : Bool) (hh : s.halt = false) :
    exec (.setcfg en) s = .next ((s.setRecoveryEn en).answer (bitValue en)) :=
  s.unlessHalted_running _ hh

/-- Settles O40: the field is the candidate, and the candidate is stored or refused by its range. -/
theorem setidStoresALegalIdentifier : Obligations.SetidStoresALegalIdentifier :=
  ⟨fun imm16 => decode_toWord ⟨0x50#8, 0, 0, imm16, 0, 0⟩,
    fun _ _ hh hc => ⟨_, exec_setid hh hc, fun _ => rfl, rfl⟩,
    fun _ _ hh hc => exec_setid_invalid hh (by omega)⟩

/-- Settles O41: both tests on the raw field are the test on the candidate. -/
theorem setidAcceptsExactlyTheRawRange : Obligations.SetidAcceptsExactlyTheRawRange := by
  intro s imm16 hh
  have hraw := hiByte_loByte_inRange_iff imm16
  by_cases h : imm16.toNat ≤ 247
  · rw [toInt_eq_toNat_of_le h]
    exact ⟨_, _, exec_setid hh h, rfl, iff_of_true rfl (hraw.mpr h), iff_of_true rfl h, absurd rfl⟩
  · exact ⟨_, _, exec_setid_invalid hh (mt (toInt_inRange_iff imm16).mp h), rfl,
      iff_of_false nofun (mt hraw.mp h), iff_of_false nofun h, fun _ => ⟨rfl, rfl⟩⟩

/-- Settles O42: the identifier and the broadcast are then one destination. -/
theorem identifierZeroIsAccepted : Obligations.IdentifierZeroIsAccepted := by
  intro s hh
  refine ⟨_, exec_setid hh (Nat.zero_le 247), rfl, rfl, rfl, fun d => ?_⟩
  have hbit : bitValue (accepts 0x00#8 d) = if d = 0x00#8 then 1#16 else 0#16 := by
    simp only [bitValue_accepts, or_self]
  rw [← hbit]
  exact ⟨_, exec_flt d hh rfl, rfl⟩

/-! ### The operand of SETCFG (R51, R113) -/

/-- A byte above 1 is no one-bit operand. -/
theorem reservedZero_C_of_two_le {f : Fields} (h : 2 ≤ f.a.toNat) : Format.C.reservedZero f = false := by
  rw [Bool.eq_false_iff, Ne, Format.reservedZero_iff]
  intro hf
  have ha : f.a = if f.a.getLsbD 0 then 0x01#8 else 0x00#8 := congrArg Fields.a hf
  split at ha <;> exact absurd (ha ▸ h) (by decide)

/-- Settles O43: the switch is all that is written, and its value the answer. -/
theorem setcfgSetsTheRecoverySwitch : Obligations.SetcfgSetsTheRecoverySwitch := by
  refine ⟨rfl, rfl, fun a ha => ?_, fun s en hh => ⟨_, exec_setcfg en hh, fun _ => rfl, rfl⟩⟩
  rw [← toWord_byteOperand, decode_toWord]
  have hrow : (⟨0x51#8, .C, fun f => .setcfg (f.a.getLsbD 0)⟩ : OpRow) ∈ opcodeMap := List.mem_of_getLast? rfl
  rw [decodeFields_of_op_eq hrow rfl, reservedZero_C_of_two_le ha]
  rfl

end Sys2Proof.Machine

/-! # Which answer a word gets, and what the answer writes (R120 to R129)

The HALTED test, the ILLEGAL test and the command's own tests determine the status (`testedStatus`), and the status
determines what is written (`Answers`). -/

namespace Sys2Proof.Machine

variable {i : Instr} {s t : State} {st : Status} {w : Word64}

/-! ### The tests before the command's own (R123, R126) -/

/-- On a halted machine no word gets further than the HALTED test. -/
theorem acceptWord_halted (w : Word64) (hh : s.halt = true) : acceptWord w s = .next (s.raise .halted) := by
  cases hd : decode w with
  | command i => rw [acceptWord_of_command hd, exec_halted i hh]
  | illegal why => rw [acceptWord_of_illegal hd]; exact s.unlessHalted_halted _ hh

/-- Settles O9: an answer that only raises a status leaves what the two ports read. -/
theorem haltedMachineAnswersHalted : Obligations.HaltedMachineAnswersHalted := fun _ w hh =>
  ⟨_, acceptWord_halted w hh, rfl, fun _ => rfl, fun _ => rfl⟩

/-- Settles O8: the HALTED test passes, and the ILLEGAL test is the next one. -/
theorem illegalWordIsAnsweredIllegal : Obligations.IllegalWordIsAnsweredIllegal := by
  intro s w rest why hh hin hd
  rw [step_word hin, acceptWord_of_illegal hd]
  exact State.unlessHalted_running _ hh

/-! ### What an answer writes, by its status (R120, R125, R129) -/

/-- `t` is `s` after an answer with the given status: what it writes, and the response that it leaves. -/
inductive Answers (s : State) : Status → State → Prop
  /-- OK: the writes are the command's own. -/
  | ok {t : State} {v : Word16} (h : t.rsp = some ⟨.ok, v, false⟩) : Answers s .ok t
  /-- An error that writes nothing. -/
  | raise {st : Status} (h : st ≠ .assert) : Answers s st (s.raise st)
  /-- ASSERT, which writes HALT. -/
  | assert : Answers s .assert s.raiseAssert
  /-- CRC_MISMATCH, which writes the diagnostics and the accumulators. -/
  | mismatch (rx recomputed : Word16) (f : Bool) : Answers s .crcMismatch
      (((s.setDiagnostics rx recomputed).setAcc recomputed).respond .crcMismatch 0#16 f)

/-- The response has the status; its value is 0 unless OK, and its flush request 0 unless CRC_MISMATCH. -/
theorem Answers.rsp (h : Answers s st t) :
    ∃ v f, t.rsp = some ⟨st, v, f⟩ ∧ (st ≠ .ok → v = 0#16) ∧ (st ≠ .crcMismatch → f = false) := by
  cases h with
  | ok h => exact ⟨_, _, h, absurd rfl, fun _ => rfl⟩
  | raise => exact ⟨_, _, rfl, fun _ => rfl, fun _ => rfl⟩
  | assert => exact ⟨_, _, rfl, fun _ => rfl, fun _ => rfl⟩
  | mismatch rx recomputed f => exact ⟨_, f, rfl, fun _ => rfl, absurd rfl⟩

theorem buildBasis_answers {d : Byte} {basis : List Byte} (hh : s.halt = false)
    (h : buildBasis d basis s = .next t) : Answers s (if 247 < d.toNat then .assert else .ok) t := by
  rcases buildBasis_next h with ⟨hhalt, -⟩ | ⟨-, hd, rfl⟩ | ⟨-, hd, -, rfl⟩
  · exact absurd hhalt (Bool.eq_false_iff.mp hh)
  · rw [if_pos hd]; exact .assert
  · rw [if_neg hd.not_gt]; exact .ok rfl

theorem compareChecksums_answers (rx recomputed : Word16) (s : State) :
    Answers s (if rx ≠ recomputed then .crcMismatch else .ok) (compareChecksums rx recomputed s) := by
  rcases compareChecksums_cases rx recomputed s with ⟨heq, h⟩ | ⟨hne, h⟩
  · rw [h, if_neg (not_not.mpr heq)]; exact .ok rfl
  · rw [h, if_pos hne]; exact .mismatch ..

/-- A command's own tests determine the status of its answer (R127, step 3). -/
theorem exec_answers_running (hh : s.halt = false) (h : exec i s = .next t) :
    Answers s (Claims.ownStatus s i) t := by
  have hrun : ¬ (s.halt = true ∧ t = s.raise .halted) := fun h => Bool.eq_false_iff.mp hh h.1
  cases i with
  | crcBuf => obtain ⟨-, -, rfl⟩ := (execCrcBuf_next h).resolve_left hrun; exact .ok rfl
  | crcInit => obtain ⟨-, rfl⟩ := (execCrcInit_next h).resolve_left hrun; exact .ok rfl
  | crcByte b => obtain ⟨-, c, -, rfl⟩ := (execCrcByte_next h).resolve_left hrun; exact .ok rfl
  | bldReq d fc addr cnt => exact buildBasis_answers hh h
  | bldRsp d fc => exact buildBasis_answers hh h
  | push b =>
    obtain ⟨-, hl, rfl⟩ | ⟨-, hl, rfl⟩ := (execPush_next h).resolve_left hrun
    · rw [Claims.ownStatus, if_pos hl]; exact .raise nofun
    · rw [Claims.ownStatus, if_neg hl.ne]; exact .ok rfl
  | appcrc =>
    obtain ⟨-, hl, rfl⟩ | ⟨-, hl, rfl⟩ := (execAppcrc_next h).resolve_left hrun
    · rw [Claims.ownStatus, if_pos hl]; exact .raise nofun
    · rw [Claims.ownStatus, if_neg hl.not_gt]; exact .ok rfl
  | clr => obtain ⟨-, rfl⟩ := (execClr_next h).resolve_left hrun; exact .ok rfl
  | chk =>
    obtain ⟨-, hl, rfl⟩ | ⟨-, hl, -, rfl⟩ := (execChk_next h).resolve_left hrun
    · rw [Claims.ownStatus, if_pos hl]; exact .raise nofun
    · rw [Claims.ownStatus, if_neg hl.not_gt]; exact compareChecksums_answers ..
  | flt d =>
    obtain ⟨-, hv, rfl⟩ | ⟨-, hv, rfl⟩ := (execFlt_next h).resolve_left hrun
    · rw [Claims.ownStatus, if_pos hv]; exact .raise nofun
    · rw [Claims.ownStatus, if_neg (by simp [hv])]; exact .ok rfl
  | fltFb =>
    obtain ⟨-, hv, rfl⟩ | ⟨-, hv, hl, rfl⟩ | ⟨-, hv, hl, rfl⟩ := (execFltFb_next h).resolve_left hrun
    · rw [Claims.ownStatus, if_pos hv]; exact .raise nofun
    · rw [Claims.ownStatus, if_neg (by simp [hv]), if_pos hl]; exact .raise nofun
    · rw [Claims.ownStatus, if_neg (by simp [hv]), if_neg hl.ne']; exact .ok rfl
  | setid c =>
    obtain ⟨-, hc, rfl⟩ | ⟨-, hc, rfl⟩ := (execSetid_next h).resolve_left hrun
    · rw [Claims.ownStatus, if_pos (by omega)]; exact .raise nofun
    · rw [Claims.ownStatus, if_neg (by omega)]; exact .ok rfl
  | setcfg en => obtain ⟨-, rfl⟩ := (execSetcfg_next h).resolve_left hrun; exact .ok rfl

/-- The status that R127's tests give to what was decoded: HALTED, ILLEGAL, then the command's own tests. -/
def testedStatus (s : State) (d : Decoded) : Status :=
  if s.halt = true then .halted
  else match d with
    | .illegal _ => .illegal
    | .command i => Claims.ownStatus s i

theorem testedStatus_halted (d : Decoded) (hh : s.halt = true) : testedStatus s d = .halted := if_pos hh

theorem testedStatus_command (i : Instr) (hh : s.halt = false) :
    testedStatus s (.command i) = Claims.ownStatus s i := if_neg (Bool.eq_false_iff.mp hh)

theorem testedStatus_illegal (why : Illegal) (hh : s.halt = false) : testedStatus s (.illegal why) = .illegal :=
  if_neg (Bool.eq_false_iff.mp hh)

theorem exec_answers (h : exec i s = .next t) : Answers s (testedStatus s (.command i)) t := by
  cases hh : s.halt with
  | true =>
    rw [exec_halted i hh] at h
    cases h
    rw [testedStatus_halted _ hh]
    exact .raise nofun
  | false =>
    rw [testedStatus_command i hh]
    exact exec_answers_running hh h

theorem acceptWord_answers (h : acceptWord w s = .next t) : Answers s (testedStatus s (decode w)) t := by
  rcases acceptWord_next h with ⟨i, hd, h⟩ | ⟨why, hd, ⟨hh, rfl⟩ | ⟨hh, rfl⟩⟩
  · rw [hd]; exact exec_answers h
  · rw [testedStatus_halted _ hh]; exact .raise nofun
  · rw [hd, testedStatus_illegal why hh]; exact .raise nofun

/-- Settles O11: every word is answered, and with the status that its tests determine. -/
theorem testsAreMadeInTheFixedOrder : Obligations.TestsAreMadeInTheFixedOrder := by
  intro s w hl
  obtain ⟨t, _, ht, -⟩ := acceptWord_responds w hl
  obtain ⟨v, f, hr, hv, hf⟩ := (acceptWord_answers ht).rsp
  exact ⟨t, _, ht, hr, rfl, hv, hf⟩

/-- Settles O16: an error raised without ASSERT writes nothing, and the two others write what they may. -/
theorem errorAnswersArePrecise : Obligations.ErrorAnswersArePrecise := by
  intro s t w r h hr hne
  have hans := acceptWord_answers h
  generalize testedStatus s (decode w) = st at hans
  cases hans with
  | ok hok => cases hr.symm.trans hok; exact absurd rfl hne
  | raise hst => cases hr; exact ⟨fun _ _ => rfl, fun _ => rfl, fun h => absurd h hst⟩
  | assert => cases hr; exact ⟨fun _ h => absurd rfl h, nofun, fun _ => rfl⟩
  | mismatch => cases hr; exact ⟨fun h => absurd rfl h, fun _ => rfl, nofun⟩

/-! ### Who raises each status (R120, R121) -/

/-- R120's table: the commands that can answer each status, and when. -/
inductive Raises (s : State) : Instr → Status → Prop
  | ok (i : Instr) : Raises s i .ok
  | invalidId {c : Int} (h : ¬ (0 ≤ c ∧ c ≤ 247)) : Raises s (.setid c) .invalidId
  | crcMismatch : Raises s .chk .crcMismatch
  | assertReq {d fc : Byte} {addr cnt : Word16} (h : 248 ≤ d.toNat) : Raises s (.bldReq d fc addr cnt) .assert
  | assertRsp {d fc : Byte} (h : 248 ≤ d.toNat) : Raises s (.bldRsp d fc) .assert
  | overflowPush {b : Byte} (h : s.len.toNat = 256) : Raises s (.push b) .overflow
  | overflowAppcrc (h : 254 < s.len.toNat) : Raises s .appcrc .overflow
  | shortChk (h : s.len.toNat < 2) : Raises s .chk .short
  | shortFltFb (h : s.len.toNat = 0) : Raises s .fltFb .short
  | noidFlt {d : Byte} (h : s.idValid = false) : Raises s (.flt d) .noid
  | noidFltFb (h : s.idValid = false) : Raises s .fltFb .noid
  | halted (i : Instr) (h : s.halt = true) : Raises s i .halted

theorem ownStatus_raises (s : State) (i : Instr) : Raises s i (Claims.ownStatus s i) := by
  cases i with
  | crcBuf | crcInit | crcByte | clr | setcfg => exact .ok _
  | bldReq d fc addr cnt => exact iteInduction (motive := Raises s _) .assertReq fun _ => .ok _
  | bldRsp d fc => exact iteInduction (motive := Raises s _) .assertRsp fun _ => .ok _
  | push b => exact iteInduction (motive := Raises s _) .overflowPush fun _ => .ok _
  | appcrc => exact iteInduction (motive := Raises s _) .overflowAppcrc fun _ => .ok _
  | chk =>
    exact iteInduction (motive := Raises s _) .shortChk fun _ =>
      iteInduction (motive := Raises s _) (fun _ => .crcMismatch) fun _ => .ok _
  | flt d => exact iteInduction (motive := Raises s _) .noidFlt fun _ => .ok _
  | fltFb =>
    exact iteInduction (motive := Raises s _) .noidFltFb fun _ =>
      iteInduction (motive := Raises s _) .shortFltFb fun _ => .ok _
  | setid c =>
    exact iteInduction (motive := Raises s _) (fun hc => .invalidId (by omega)) fun _ => .ok _

theorem testedStatus_raises (s : State) (i : Instr) : Raises s i (testedStatus s (.command i)) := by
  cases hh : s.halt with
  | true => rw [testedStatus_halted _ hh]; exact .halted i hh
  | false => rw [testedStatus_command i hh]; exact ownStatus_raises s i

theorem Status.code_toNat_le (st : Status) : st.code.toNat ≤ 8 := by cases st <;> decide

/-- Settles O17: the response carries the tested status, and the table's rows for that status tell who raised it. -/
theorem statusesAreRaisedAsTheTableSays : Obligations.StatusesAreRaisedAsTheTableSays := by
  refine ⟨fun i s t r h hr => ?_, rfl, Status.code_toNat_le⟩
  obtain ⟨v, f, hrsp, hv, -⟩ := (exec_answers h).rsp
  obtain rfl := Option.some.inj (hr.symm.trans hrsp)
  have hraises := testedStatus_raises s i
  generalize testedStatus s (.command i) = st at hv hraises
  refine ⟨hv, ?invalidId, ?crcMismatch, ?assert, ?overflow, ?short, ?noid, ?halted, ?illegal⟩ <;> rintro rfl
  case invalidId => cases hraises with | invalidId hc => exact ⟨_, rfl, hc⟩
  case crcMismatch => cases hraises; rfl
  case assert =>
    cases hraises with
    | assertReq hd => exact ⟨_, hd, .inl ⟨_, _, _, rfl⟩⟩
    | assertRsp hd => exact ⟨_, hd, .inr ⟨_, rfl⟩⟩
  case overflow =>
    cases hraises with
    | overflowPush hl => exact .inl ⟨⟨_, rfl⟩, hl⟩
    | overflowAppcrc hl => exact .inr ⟨rfl, hl⟩
  case short =>
    cases hraises with
    | shortChk hl => exact .inl ⟨rfl, hl⟩
    | shortFltFb hl => exact .inr ⟨rfl, hl⟩
  case noid =>
    cases hraises with
    | noidFlt hv => exact ⟨List.mem_cons_self, hv⟩
    | noidFltFb hv => exact ⟨List.mem_cons_of_mem _ List.mem_cons_self, hv⟩
  case halted => cases hraises with | halted _ hh => exact hh
  case illegal => cases hraises

end Sys2Proof.Machine

/-! # Reset and the invariant of every reachable state (R140, R141, R143)

The invariant speaks of four items: the buffer, LEN, OWN_ID and ID_VALID. Five commands set
LEN, each to the address behind bytes that were written; SETID writes the identifier; every other command keeps the
four. -/

namespace Sys2Proof.Machine

variable {i : Instr} {s t : State} {w : Word64}

/-- Settles O15: no byte stands below LEN, and no identifier is valid. -/
theorem resetStateMeetsTheInvariant : Obligations.ResetStateMeetsTheInvariant :=
  ⟨Nat.zero_le _, nofun, fun a ha => absurd ha (Nat.not_lt_zero a), rfl⟩

/-- Settles O27: the reset empties the list of written bytes and advances the draw. -/
theorem resetInputGivesTheResetState : Obligations.ResetInputGivesTheResetState := fun _ _ hin =>
  ⟨_, step_reset hin, rfl, rfl, rfl, fun _ => rfl⟩

/-! ### What keeps the invariant -/

/-- The four items that the invariant speaks of. -/
def State.invItems (s : State) : Memory × LenWord × Byte × Bool := (s.fb, s.len, s.ownId, s.idValid)

theorem State.Inv.of_invItems_eq (h : s.Inv) (heq : t.invItems = s.invItems) : t.Inv := by
  simp only [State.invItems, Prod.mk.injEq] at heq
  obtain ⟨hfb, hlen, hown, hvalid⟩ := heq
  constructor
  · rw [State.lenInRange, hlen]; exact h.lenInRange
  · rw [State.idInRange, hown, hvalid]; exact h.idInRange
  · rw [State.frameWritten, hfb, hlen]; exact h.frameWritten
  · rw [hfb]; exact h.fbCanonical

/-- Bytes written from an address of the frame on, or just behind it, are the end of a written frame. -/
theorem State.Inv.of_writeBytes (h : s.Inv) {n : Nat} {bs : List Byte} (hn : n ≤ s.len.toNat)
    (hl : n + bs.length ≤ 256) (hfb : t.fb = s.fb.writeBytes n bs) (hlen : t.len.toNat = n + bs.length)
    (hid : t.idInRange) : t.Inv := by
  refine ⟨hlen.trans_le hl, hid, fun a ha => ?_, hfb ▸ Memory.writeBytes_wf hl h.fbCanonical⟩
  rw [hfb, Memory.read_writeBytes]
  split
  case isTrue hin => rw [isSome_getElem?]; omega
  case isFalse hout => exact h.frameWritten a (by omega)

theorem candidateByte_toNat_le {c : Int} (hc : 0 ≤ c ∧ c ≤ 247) : (candidateByte c).toNat ≤ 247 := by
  lift c to Nat using hc.1
  rw [candidateByte_natCast, BitVec.toNat_ofNat]
  omega

theorem State.Inv.setOwnId (h : s.Inv) {own : Byte} (hown : own.toNat ≤ 247) : (s.setOwnId own).Inv :=
  ⟨h.lenInRange, fun _ => hown, h.frameWritten, h.fbCanonical⟩

theorem exec_invItems
    (hi : i.mnemonic ∉ ["BLD.REQ", "BLD.RSP", "PUSH", "APPCRC", "CLR", "SETID"]) (h : exec i s = .next t) :
    t.invItems = s.invItems := by
  by_contra hne
  exact hi (mnemonic_mem_of_changed (fun u => (u.fb, u.len, u.ownId, u.idValid)) h hne)

theorem buildBasis_keeps_inv {d : Byte} {basis : List Byte} (hs : s.Inv) (h : buildBasis d basis s = .next t) :
    t.Inv := by
  rcases buildBasis_next h with ⟨-, rfl⟩ | ⟨-, -, rfl⟩ | ⟨-, -, hl, rfl⟩
  · exact hs.of_invItems_eq rfl
  · exact hs.of_invItems_eq rfl
  · have hlen : (BitVec.ofNat 9 basis.length).toNat = 0 + basis.length := by
      rw [BitVec.toNat_ofNat]; omega
    exact hs.of_writeBytes (Nat.zero_le _) (by omega) rfl hlen hs.idInRange

theorem exec_keeps_inv (hs : s.Inv) (h : exec i s = .next t) : t.Inv := by
  cases i with
  | bldReq | bldRsp => exact buildBasis_keeps_inv hs h
  | push b =>
    rcases execPush_next h with ⟨-, rfl⟩ | ⟨-, -, rfl⟩ | ⟨-, hl, rfl⟩
    · exact hs.of_invItems_eq rfl
    · exact hs.of_invItems_eq rfl
    · exact hs.of_writeBytes (bs := [b]) le_rfl hl rfl (len_advance hl) hs.idInRange
  | appcrc =>
    rcases execAppcrc_next h with ⟨-, rfl⟩ | ⟨-, -, rfl⟩ | ⟨-, hl, rfl⟩
    · exact hs.of_invItems_eq rfl
    · exact hs.of_invItems_eq rfl
    · have hfits : s.len.toNat + 2 ≤ 256 := Nat.add_le_add_right hl 2
      exact hs.of_writeBytes (bs := wireBytes (checksum s.frame)) le_rfl hfits rfl (len_advance hfits) hs.idInRange
  | clr =>
    rcases execClr_next h with ⟨-, rfl⟩ | ⟨-, rfl⟩
    · exact hs.of_invItems_eq rfl
    · exact hs.of_writeBytes (bs := []) (Nat.zero_le _) (Nat.zero_le _) rfl rfl hs.idInRange
  | setid c =>
    rcases execSetid_next h with ⟨-, rfl⟩ | ⟨-, -, rfl⟩ | ⟨-, hc, rfl⟩
    · exact hs.of_invItems_eq rfl
    · exact hs.of_invItems_eq rfl
    · exact (hs.setOwnId (candidateByte_toNat_le hc)).of_invItems_eq rfl
  | crcBuf | crcInit | crcByte | chk | flt | fltFb | setcfg =>
    exact hs.of_invItems_eq (exec_invItems (by simp [Instr.mnemonic]) h)

theorem acceptWord_keeps_inv (hs : s.Inv) (h : acceptWord w s = .next t) : t.Inv := by
  rcases acceptWord_next h with ⟨i, -, h⟩ | ⟨why, -, ⟨-, rfl⟩ | ⟨-, rfl⟩⟩
  · exact exec_keeps_inv hs h
  · exact hs.of_invItems_eq rfl
  · exact hs.of_invItems_eq rfl

/-- Settles O14: a step keeps the four items, resets them, or accepts a word. -/
theorem everyStepKeepsTheInvariant : Obligations.EveryStepKeepsTheInvariant := by
  intro s t hs h
  rcases step_next h with ⟨-, rfl⟩ | ⟨rest, -, rfl⟩ | ⟨w, rest, -, h⟩
  · exact hs.of_invItems_eq rfl
  · exact State.Inv.of_invItems_eq resetStateMeetsTheInvariant rfl
  · exact acceptWord_keeps_inv (s := { s with inputs := rest }) (hs.of_invItems_eq rfl) h

end Sys2Proof.Machine

/-! # What only a reset undoes (R131, R140, R143) -/

namespace Sys2Proof.Machine

variable {i : Instr} {s t : State} {w : Word64}

/-- Settles O10: nothing presented changes no item, and a word is answered HALTED. -/
theorem haltedStateStaysUntilReset : Obligations.HaltedStateStaysUntilReset := by
  intro s t hh h
  rcases step_next h with ⟨-, rfl⟩ | ⟨rest, hin, -⟩ | ⟨w, rest, -, h⟩
  · exact .inl rfl
  · exact .inr ⟨rest, hin⟩
  · rw [acceptWord_halted (s := { s with inputs := rest }) w hh] at h
    cases h
    exact .inl rfl

/-- `flag` is sticky: no write clears it, and neither the response nor what the host presents is part of it. -/
structure Sticky (flag : State → Bool) : Prop where
  write : ∀ (w : Write) (u : State), flag u = true → flag (w.apply u) = true
  rsp : ∀ (x : Option Response) (u : State), flag { u with rsp := x } = flag u
  inputs : ∀ (x : List Input) (u : State), flag { u with inputs := x } = flag u

theorem sticky_halt : Sticky (·.halt) := by
  refine ⟨fun w u hu => ?_, fun _ _ => rfl, fun _ _ => rfl⟩
  cases w with
  | halt => rfl
  | bytes | len | acc | ident | recoveryEn | diagnostics => exact hu

theorem sticky_idValid : Sticky (·.idValid) := by
  refine ⟨fun w u hu => ?_, fun _ _ => rfl, fun _ _ => rfl⟩
  cases w with
  | ident => rfl
  | bytes | len | acc | recoveryEn | diagnostics | halt => exact hu

section Sticky

variable {flag : State → Bool} (hf : Sticky flag)
include hf

theorem Sticky.applyAll (ws : List Write) (hs : flag s = true) : flag (applyAll ws s) = true := by
  induction ws generalizing s with
  | nil => exact hs
  | cons w ws ih => exact ih (hf.write w s hs)

theorem Sticky.acceptWord (hs : flag s = true) (h : acceptWord w s = .next t) : flag t = true := by
  rcases acceptWord_next h with ⟨i, -, h⟩ | ⟨why, -, ⟨-, rfl⟩ | ⟨-, rfl⟩⟩
  · obtain ⟨p, -, rfl⟩ := exec_eq_next_iff.mp h
    exact (hf.rsp _ _).trans (hf.applyAll p.writes hs)
  · exact (hf.rsp _ s).trans hs
  · exact (hf.rsp _ s).trans hs

/-- A sticky flag is cleared by a reset alone. -/
theorem Sticky.step (hs : flag s = true) (h : step s = .next t) :
    flag t = true ∨ ∃ rest, s.inputs = .reset :: rest := by
  rcases step_next h with ⟨-, rfl⟩ | ⟨rest, hin, -⟩ | ⟨w, rest, -, h⟩
  · exact .inl ((hf.rsp none s).trans hs)
  · exact .inr ⟨rest, hin⟩
  · exact .inl (hf.acceptWord ((hf.inputs rest s).trans hs) h)

end Sticky

/-- Settles O28: both flags are sticky. -/
theorem onlyResetClearsHaltAndIdValid : Obligations.OnlyResetClearsHaltAndIdValid := by
  rintro s t h (⟨hs, ht⟩ | ⟨hs, ht⟩)
  · exact (sticky_halt.step hs h).resolve_left (Bool.eq_false_iff.mp ht)
  · exact (sticky_idValid.step hs h).resolve_left (Bool.eq_false_iff.mp ht)

end Sys2Proof.Machine

/-! # Sequences without a hazard (R146, R151) -/

namespace Sys2Proof.Machine

variable {i j : Instr} {s t : State}

/-- CHK writes the accumulators whole, on a match and on a mismatch. -/
theorem compareChecksums_acc (rx recomputed : Word16) (s : State) (hi lo : Byte) :
    compareChecksums rx recomputed { s with accHi := hi, accLo := lo } = compareChecksums rx recomputed s := by
  simp only [compareChecksums_eq_plan]
  rfl

/-- Settles O25: a checksum that was computed is that of buffer bytes, and it overwrites the accumulators. -/
theorem wholeFrameChecksumsStartFromTheSeed : Obligations.WholeFrameChecksumsStartFromTheSeed := by
  intro i s t r hi lo hmem h hr hst
  have raised {st : Status} (hok : st ≠ .ok) (hmm : st ≠ .crcMismatch) : t ≠ s.raise st := by
    rintro rfl
    cases hr
    exact hst.elim hok hmm
  cases i with
  | crcBuf =>
    obtain ⟨-, ht⟩ | ⟨hh, hl, rfl⟩ := execCrcBuf_next h
    · exact absurd ht (raised nofun nofun)
    · exact exec_crcBuf (s := { s with accHi := hi, accLo := lo }) hh hl
  | appcrc =>
    obtain ⟨-, ht⟩ | ⟨-, -, ht⟩ | ⟨hh, hl, -⟩ := execAppcrc_next h
    · exact absurd ht (raised nofun nofun)
    · exact absurd ht (raised nofun nofun)
    · exact (exec_appcrc (s := { s with accHi := hi, accLo := lo }) hh hl).trans ((exec_appcrc hh hl).symm.trans h)
  | chk =>
    obtain ⟨-, ht⟩ | ⟨-, -, ht⟩ | ⟨hh, hl', hl, rfl⟩ := execChk_next h
    · exact absurd ht (raised nofun nofun)
    · exact absurd ht (raised nofun nofun)
    · exact (exec_chk (s := { s with accHi := hi, accLo := lo }) hh hl hl').trans
        (congrArg Host.Outcome.next (compareChecksums_acc _ _ s hi lo))
  | crcInit | crcByte | bldReq | bldRsp | push | clr | flt | fltFb | setid | setcfg =>
    simp [Instr.mnemonic] at hmem

theorem exec_of_plan {p : Plan} (h : plan i s = .ok p) : exec i s = .next (p.run s) :=
  exec_eq_next_iff.mpr ⟨p, h, rfl⟩

/-- A command finds the plan that it found before another one, when none of the writes that R24 permits the
other one makes a difference to it. -/
theorem plan_run {p : Plan} (h : plan i s = .ok p)
    (hw : ∀ w : Write, i.mnemonic ∈ w.commands → ∀ u, plan j (w.apply u) = plan j u) :
    plan j (p.run s) = plan j s :=
  (plan_rsp _).trans (applyAll_keeps (plan j) s fun w hmem => hw w (plan_permitted h w hmem))

/-- CHK writes the accumulators and the diagnostics only, and FLT.FB reads neither. -/
theorem plan_fltFb_of_chk_write {w : Write} (h : Instr.chk.mnemonic ∈ w.commands) (u : State) :
    plan .fltFb (w.apply u) = plan .fltFb u := by
  cases w with
  | acc c => exact plan_acc (by simp [Instr.mnemonic]) _ _
  | diagnostics rx recomputed => exact plan_diagnostics rx recomputed
  | bytes | len | ident | recoveryEn | halt => simp [Write.commands, Instr.mnemonic] at h

theorem fltFb_notMem_commands (w : Write) : Instr.fltFb.mnemonic ∉ w.commands := by
  cases w <;> simp [Write.commands, Instr.mnemonic]

/-- Settles O54: each of the two finds behind the other one the plan that it finds before it. -/
theorem checkAndFilterAreIndependent : Obligations.CheckAndFilterAreIndependent := by
  intro s hl
  obtain ⟨p, hp⟩ := plan_ok .chk hl
  obtain ⟨q, hq⟩ := plan_ok .fltFb hl
  have hq' : plan .fltFb (p.run s) = .ok q := (plan_run hp fun _ => plan_fltFb_of_chk_write).trans hq
  have hp' : plan .chk (q.run s) = .ok p := (plan_run hq fun w hw => absurd hw (fltFb_notMem_commands w)).trans hp
  exact ⟨_, _, _, _, exec_of_plan hp, exec_of_plan hq', exec_of_plan hq, exec_of_plan hp', rfl, rfl⟩

end Sys2Proof.Machine

/-! # The worked encodings (30_encoding.md section 6) -/

namespace Sys2Proof

variable {i : Instr} {w : Word64}

/-- A word that spells a command decodes to it. -/
theorem decode_of_encode_eq (hwf : i.wellFormed = true) (hw : encode i = w) : decode w = .command i :=
  hw ▸ decodeOfEncodeIsTheCommand i hwf

/-- Settles O5: each legal word is the spelling of its command; of the illegal ones, the first has no assigned
opcode, and the others have one but match no row. -/
theorem workedEncodingsDecode : Obligations.WorkedEncodingsDecode := by
  unfold Obligations.WorkedEncodingsDecode
  and_intros
  iterate 15 exact decode_of_encode_eq rfl rfl
  · exact (decode_eq_unassigned_iff _).mpr (by decide)
  iterate 3 exact (decode_eq_reservedField_iff _).mpr (by decide)

end Sys2Proof
